-- ==== Sys2Proof/Word.lean ====
section
/-! DEFINITION. The word types of the 612: sixteen-bit window cells (R161) and the bytes of the aisle link (R184). -/

namespace Sys2Proof

/-- A sixteen-bit window cell value (R161, R162). -/
abbrev Word := BitVec 16

/-- One data byte of a link character (R73, R184). -/
abbrev Byte := BitVec 8

/-- A number as a cell value. -/
def word (n : Nat) : Word := BitVec.ofNat 16 n

/-- A number as a byte. -/
def byte (n : Nat) : Byte := BitVec.ofNat 8 n

end Sys2Proof
end

