-- ==== Sys2Proof/Syntax.lean ====
section
/-! DEFINITION. The 78 commands and events of spec/opcode_table.json, one constructor a row, in the table's order.
A request carries no operand of its own: its operands are the values of P0–P5 and CONTEXT that the window holds when the
request code is written (R163). -/

namespace Sys2Proof

/-- One character as received on LRX (R73): its eight data bits, its mark bit, and whether its stop bit was marking. -/
structure LinkChar where
  data : Byte
  mark : Bool
  stopMarking : Bool
  deriving DecidableEq, Repr

/-- What became of the battery-backed record memory by the time RESET is asserted or the supply rises (R21): kept, or lost
because its battery failed, so that its format mark is absent. -/
inductive MemoryFate where
  | kept
  | lost
  deriving DecidableEq, Repr

/-- The commands of the 612. -/
inductive Instr where
  -- Chapter 1: segments and bins
  | enrolBin
  | retireBin
  | setPlace
  | readBin
  | defineSegment
  | readSegment
  | readChanged
  | clearChanged
  -- Chapter 2: day, categories, items, patrons
  | setDay
  | setCategory
  | readCategory
  | enrolItem
  | retireItem
  | readItem
  | enrolPatron
  | retirePatron
  | setPatronBlock
  | readPatron
  | readLoans
  -- Chapter 3: orders
  | fetch
  | collect
  | readOrder
  | cancelOrder
  | resumeOrder
  | audit
  | cancelAudit
  | auditBin
  | quiesce
  | wake
  -- Chapter 4: shuttles
  | readShuttle
  | reviveShuttle
  -- Chapter 5: stations and lane
  | openStation
  | closeStation
  | setStation
  | dismiss
  | reclaimPlace
  | readStation
  | readLane
  -- Chapter 6: lending
  | pick
  | putBack
  | charge
  | renew
  | declareLost
  | placeHold
  | cancelHold
  -- Chapter 7: returns
  | returnItem
  | placeDropped
  | closePosition
  | readDropList
  -- Chapters 8 to 10: zones, faults, soft reset
  | setDeadline
  | readZone
  | readFault
  | clearFault
  | resetController
  -- Chapter 9: other window accesses
  /-- A REQUEST write of `value`, which is no defined request code. -/
  | undefinedRequest (value : Word)
  /-- A REQUEST write of `value` while BUSY is set. -/
  | requestCollision (value : Word)
  | releaseWrite (value : Word)
  | causeWrite (value : Word)
  | enableWrite (value : Word)
  | levelsWrite (value : Word)
  | stateRead
  /-- A write to a cell select 0–31 that has no row of its own. -/
  | windowCellWrite (cell : BitVec 5) (value : Word)
  -- Resets
  | resetAsserted (memory : MemoryFate)
  | startUp
  -- Fire panel and zone timers
  | alarmLineChange (zone : Fin 4) (active : Bool)
  | zoneDeadlineExpiry (zone : Fin 4)
  | revivalRetryDue (shuttle : Fin 6)
  -- Aisle link
  | offlinePollDue (shuttle : Fin 6)
  | linkGrant
  /-- The characters of a whole answer, in the order received: the code, its fields and the check. -/
  | answerReceived (chars : List LinkChar)
  | answerInvalid
  | replyWindowExpiry
  | motionDeadlineExpiry (shuttle : Fin 6)
  -- Audit sweep
  | auditCursorStep
  -- Lane
  | ldone
  | lflt
  | crossingDeadlineExpiry
  | receivedCharacterDiscarded (char : LinkChar)
  deriving DecidableEq, Repr

end Sys2Proof
end

