-- ==== Sys2Proof/Decode.lean ====
section
/-! DEFINITION. The commands that words spell: no row of the table gives bits, so no word spells one. -/

namespace Sys2Proof

/-- The command that a word of the table's bits spells: the table of this block gives no row any bits. -/
def decodeTableWord (_nbits _w : Nat) : Option Instr := none

end Sys2Proof
end

