-- ==== Sys2Proof/Config.lean ====
section
/-! DEFINITION. What the 612 fixes once (capacities and times stated by the spec), and the values the spec leaves open. -/

namespace Sys2Proof.Config

/-- The item table's capacity (R23). -/
def itemCapacity : Nat := 32768

/-- The patron table's capacity (R29). -/
def patronCapacity : Nat := 4096

/-- The greatest tag (R23). -/
def maxTag : Nat := 16777215

/-- The greatest patron number (R29). -/
def maxPatron : Nat := 1048575

/-- The greatest day number (R37). -/
def maxDay : Nat := 65535

/-- The drop list's capacity (R136). -/
def dropCapacity : Nat := 32

/-- The drop-list length at which an append wakes the wing (R67, R136). -/
def dropWakeLength : Nat := 24

/-- The motion deadline in seconds (R80). -/
def motionDeadline : Nat := 120

/-- The crossing deadline in seconds (R94). -/
def crossingDeadline : Nat := 30

/-- The wait between offline polls, and before a revival STATUS is placed again, in seconds (R79, R152). -/
def pollInterval : Nat := 2

/-- The deadline setting that formatting writes, in seconds (R21). -/
def defaultDeadline : Nat := 45

/-- FREE VALUE. The qualifier field of READ BIN's A3 for a place, given by its code, that carries no qualifier. R178 states the
mark for none for a whole cell and for a byte, and for no narrower field (log entry 6). -/
opaque absentQualifier : Nat → BitVec 3

/-- FREE VALUE. The patron high part in RETURN ITEM's A0 for an item in a state, given by its code, other than ON_LOAN (log entry
6). -/
opaque absentPatronHigh : Nat → BitVec 4

/-- FREE VALUE. The kind field in READ FAULT's A0 when the record is EMPTY (log entry 6). -/
opaque absentFaultKind : BitVec 3

/-- FREE VALUE. Whether CHARGE asks for a presented bin: R39 and R115 say that it does, R110 and R117 that it does not, and no rule
settles which of them holds (log entry 28). -/
opaque chargeNeedsBin : Bool

/-- FREE VALUE. Whether AUDIT BIN asks for zone 3 NORMAL beside the bin's home zone: R141 says that it does, check 4 of R64 names the
home zone alone, and no rule settles which of them holds (log entry 29). -/
opaque auditBinNeedsHall : Bool

end Sys2Proof.Config
end

