-- ==== Sys2Proof/Machine/Records.lean ====
section
/-! DEFINITION. The records the nine blocks hold, as plain data, in the words of the spec's own record tables. -/

namespace Sys2Proof.Machine

/-! ## Numbers -/

/-- An aisle, and the shuttle that serves it (R69: shuttle n serves aisle n). -/
abbrev Aisle := Fin 6
/-- A fire zone (08 A). -/
abbrev ZoneNo := Fin 4
/-- A segment number (R1). -/
abbrev SegNo := Fin 32
/-- A bin number (R2). -/
abbrev BinNo := Fin 2048
/-- An order number (R40). -/
abbrev OrderNo := Fin 32
/-- A station number (R99). -/
abbrev StationNo := Fin 5
/-- A pick station number (R99). -/
abbrev PickNo := Fin 4
/-- A tag, 1–16,777,215 in a record; 0 names no item (R23). -/
abbrev Tag := Nat
/-- A patron number, 1–1,048,575 in a record; 0 names no patron (R29). -/
abbrev PatronNo := Nat

/-- A retained table keyed by number: its keys rise strictly, so that equal tables are equal data (log entry 5). -/
abbrev Table (α : Type) := List (Nat × α)

/-! ## Segments and bins (Chapter 1) -/

/-- R1 direction. -/
inductive Direction where
  | up | down
  deriving DecidableEq, Repr

/-- R1 access class, in the order of its table. -/
inductive AccessClass where
  | openClass | inBuilding | view | closedClass
  deriving DecidableEq, Repr

/-- A segment descriptor (R1): `base` is 0–511 and `length` 1–64. -/
structure Segment where
  valid : Bool
  aisle : Aisle
  base : Nat
  length : Nat
  direction : Direction
  cls : AccessClass
  changed : Bool
  deriving DecidableEq, Repr

/-- R11 kind. -/
inductive BinKind where
  | collection | intake | hold
  deriving DecidableEq, Repr

/-- A position of the return station (R127). -/
inductive Position where
  | intake | hold
  deriving DecidableEq, Repr

/-- A station as a FETCH's destination and as the qualifier of AT_STATION: a pick station, or station 4 with its position
(R11, R40). -/
inductive Dest where
  | pick (s : PickNo)
  | ret (p : Position)
  deriving DecidableEq, Repr

/-- The ten places of a bin, each with its qualifier (R11). -/
inductive Place where
  | home
  | onShuttle (a : Aisle)
  | portOut (a : Aisle)
  | portIn (a : Aisle)
  | crossing
  | atStation (d : Dest)
  | stationOut (s : StationNo)
  | stranded
  | unverified
  | missing
  deriving DecidableEq, Repr

/-- A bin record (R11), kept in the bin table under its bin number. -/
structure BinRec where
  kind : BinKind
  capacity : Nat
  itemCount : Nat
  pickedOut : Nat
  place : Place
  holder : Option OrderNo
  deriving DecidableEq, Repr

/-! ## Items and patrons (Chapter 2) -/

/-- The six item states with the fields each carries (R23). -/
inductive ItemState where
  | shelved (bin : BinNo)
  | held (bin : BinNo)
  | picked (station : PickNo) (origin : BinNo)
  | onLoan (patron : PatronNo) (due : Nat) (renewals : Nat)
  | dropped
  | lost
  deriving DecidableEq, Repr

/-- An item record (R23), kept under its tag. -/
structure Item where
  state : ItemState
  holds : List PatronNo
  deriving DecidableEq, Repr

/-- R29 category. -/
inductive Category where
  | student | researcher | staff | desk
  deriving DecidableEq, Repr

/-- A patron record (R29), kept under its number. The loan count is the length of the loan list (log entry 5). -/
structure Patron where
  category : Category
  holdCount : Nat
  blocked : Bool
  loans : List Tag
  deriving DecidableEq, Repr

/-- A row of the category table (R35). -/
structure CategoryRow where
  limit : Nat
  maxDays : Nat
  deriving DecidableEq, Repr

/-- The retained tables of R19 other than the format mark and the pending-update record. -/
structure Tables where
  segments : Vector Segment 32
  bins : Table BinRec
  items : Table Item
  patrons : Table Patron
  categories : Vector CategoryRow 4
  day : Nat
  supervised : Vector Bool 5
  deadlines : Vector Nat 4
  deriving DecidableEq, Repr

/-- The pending-update record of R20 when it is not clear: the new value of every field the event changes (as the tables
with those values written), and whether its complete mark has been written. -/
structure PendingUpdate where
  complete : Bool
  image : Tables
  deriving DecidableEq, Repr

/-! ## Shuttle commands (Chapter 4) -/

/-- The motion commands, TRAVEL with its target position 0–511 (R74). -/
inductive Motion where
  | travel (target : Nat)
  | lift
  | lower
  | probe
  | toPort
  | handOff
  | takeOn
  | park
  deriving DecidableEq, Repr

/-! ## Orders (Chapter 3) -/

/-- R40 kind. -/
inductive OrderKind where
  | fetch | stow | probe | restore
  deriving DecidableEq, Repr

/-- R40 source. -/
inductive Source where
  | host | returnStation | recovery | audit
  deriving DecidableEq, Repr

/-- The stages of R41's table other than HALTED and FINISHED, in its order. -/
inductive RunStage where
  | queued | seeking | lifting | carrying | holding | handing | waitingLane | crossing | takingOn | returning | lowering
  | probing
  deriving DecidableEq, Repr

/-- R42 outcomes, in the order of their table. -/
inductive Outcome where
  | ok | cancelled | fire | absent | found | mismatch | unreadable | fault
  deriving DecidableEq, Repr

/-- R57 halt reasons. -/
inductive HaltReason where
  | fault | silent | fire
  deriving DecidableEq, Repr

/-- The restart record (R40, R57). -/
structure Restart where
  stageAt : RunStage
  command : Motion
  completionSeen : Bool
  reason : HaltReason
  deriving DecidableEq, Repr

/-- A stage (R41's table): HALTED carries the restart record and FINISHED the outcome, as R40 has them present. -/
inductive Stage where
  | run (r : RunStage)
  | halted (r : Restart)
  | finished (o : Outcome)
  deriving DecidableEq, Repr

/-- The pending outcome of a FETCH that unwinds after a failed label check (R40, R86). -/
inductive LabelFailure where
  | mismatch | unreadable
  deriving DecidableEq, Repr

/-- An order (R40); its number is that of its entry. -/
structure Order where
  kind : OrderKind
  source : Source
  bin : BinNo
  aisle : Aisle
  priority : Fin 4
  stage : Stage
  dest : Option Dest
  cancel : Bool
  pendingOutcome : Option LabelFailure
  deriving DecidableEq, Repr

/-- A claim of the order-entry claim list (R60). -/
inductive Claim where
  | restore (shuttle : Aisle) (bin : BinNo)
  | dismissal (p : Position)
  | fetch (p : Position)
  | audit (bin : BinNo)
  deriving DecidableEq, Repr

/-- R65 quiet state. -/
inductive Quiet where
  | active | quiescing | quiet
  deriving DecidableEq, Repr

/-- The state the Order Unit owns, but for the bins' places and holders (00 B). -/
structure OrderUnit where
  orders : Vector (Option Order) 32
  queues : Vector (List OrderNo) 6
  claims : List Claim
  /-- The audit cursor: stopped, or at a bin number 0–2048 (R62). -/
  cursor : Option Nat
  sweep : Bool
  auditCount : Nat
  quiet : Quiet
  deriving DecidableEq, Repr

/-! ## The aisle link (Chapter 4) -/

/-- R69 shuttle state. -/
inductive ShuttleState where
  | offline | idle | busy | faulted | parked | caught
  deriving DecidableEq, Repr

/-- The mark of the command in flight (R69). -/
inductive CommandMark where
  | sent | unconfirmed | accepted
  deriving DecidableEq, Repr

/-- The command in flight (R69); `fire` tells a fire PARK from every other command (R84). -/
structure InFlight where
  motion : Motion
  mark : CommandMark
  fire : Bool
  deriving DecidableEq, Repr

/-- The position field of a shuttle record (R69). -/
inductive RackPos where
  | rack (n : Nat)
  | port
  | park
  deriving DecidableEq, Repr

/-- A shuttle record (R69), and the two 2 s waits that R79 and R152 give each shuttle: `pollWait` is absent once the next
offline poll is due, `revivalRetry` is present while a revival STATUS waits to be placed again. -/
structure Shuttle where
  state : ShuttleState
  carried : Option BinNo
  order : Option OrderNo
  command : Option InFlight
  deadline : Option Nat
  position : RackPos
  silence : Nat
  faultCode : Byte
  pollWait : Option Nat
  revivalRetry : Option Nat
  deriving DecidableEq, Repr

/-- The message waiting in a slot of the send list (R78). -/
inductive Message where
  | command (m : Motion) (fire : Bool)
  | revival
  | hostRevival
  | resume
  deriving DecidableEq, Repr

/-- What the exchange in progress is (R78). -/
inductive ExchangeKind where
  | command (m : Motion)
  | busyPoll
  | offlinePoll
  | revival
  | hostRevival
  | resume
  deriving DecidableEq, Repr

/-- What is made of the result of the exchange in progress: applied in full, used for the silence count and the position
only (R58, R82, R144), or discarded (R85). -/
inductive ResultUse where
  | full | silenceAndPosition | discard
  deriving DecidableEq, Repr

/-- The exchange in progress (R76), with the characters sent on LTX (R74). -/
structure Exchange where
  shuttle : Aisle
  kind : ExchangeKind
  use : ResultUse
  sent : List LinkChar
  deriving DecidableEq, Repr

/-- The levels of the link's output lines for the time of one bit: LDIR driven or released, and LTX marking (log entry 9) or spacing
(R73). -/
structure LineBit where
  ldir : Bool
  ltx : Bool
  deriving DecidableEq, Repr

/-- The state the Aisle Link Controller owns. `line` is what LDIR and LTX have carried since the last message began, bit by bit,
its last entry their levels now (R73). `last2`, `last3` and `last4` are the shuttles last granted in classes 2 to 4
(R78). -/
structure LinkUnit where
  shuttles : Vector Shuttle 6
  slots : Vector (Option Message) 6
  last2 : Aisle
  last3 : Aisle
  last4 : Aisle
  exchange : Option Exchange
  line : List LineBit
  deriving DecidableEq, Repr

/-! ## The lane (Chapter 5) -/

/-- A requester of the lane, and the source of a crossing (R92, R94). -/
inductive Requester where
  | port (a : Aisle)
  | station (s : StationNo)
  deriving DecidableEq, Repr

/-- The destination of a crossing (R94). -/
inductive CrossDest where
  | station (d : Dest)
  | portIn (a : Aisle)
  deriving DecidableEq, Repr

/-- The state of a crossing: RUNNING with the time left of its deadline, or STOPPED (R94, R97). -/
inductive CrossState where
  | running (deadline : Nat)
  | stopped
  deriving DecidableEq, Repr

/-- The crossing record (R94). -/
structure Crossing where
  source : Requester
  dest : CrossDest
  bin : BinNo
  order : OrderNo
  state : CrossState
  deriving DecidableEq, Repr

/-- The state the Lane Controller owns and the lane lines it drives. The grant pointer is a place 0–10 in the cyclic order
of R92. `lgoPulses` counts the pulses of LGO. -/
structure LaneUnit where
  outPlaces : Vector (Option BinNo) 6
  inPlaces : Vector (Option BinNo) 6
  crossing : Option Crossing
  pointer : Fin 11
  lsrc : BitVec 4
  ldst : BitVec 4
  lstop : Bool
  lgoPulses : Nat
  deriving DecidableEq, Repr

/-! ## Stations (Chapters 5 and 7) -/

/-- A station's state (R99); FIRE_HELD remembers whether the station is to be OPEN afterward. -/
inductive StationState where
  | closed
  | opened
  | fireHeld (rememberOpen : Bool)
  deriving DecidableEq, Repr

/-- The state of a return-station position, with the fields present in it (R127). -/
inductive PosState where
  | empty
  | wanting
  | arriving (order : OrderNo)
  | presented (bin : BinNo)
  | fullWaiting (bin : BinNo)
  deriving DecidableEq, Repr

/-- The state the Station Unit owns (R99, R127), but for the supervised attributes, which are retained. -/
structure StationUnit where
  states : Vector StationState 5
  queues : Vector (List BinNo) 4
  reserved : Vector Nat 4
  outs : Vector (Option BinNo) 5
  intake : PosState
  hold : PosState
  deriving DecidableEq, Repr

/-! ## Fire zones (Chapter 8) -/

/-- A zone's state (R141); ALARM carries the remaining deadline. -/
inductive ZoneState where
  | normal
  | alarm (remaining : Nat)
  | sealed
  | recovery
  deriving DecidableEq, Repr

/-- A zone record (R141) with the level of its CLR line (R142). -/
structure Zone where
  state : ZoneState
  line : Bool
  clr : Bool
  deriving DecidableEq, Repr

/-- The state the Fire Interlock Unit owns, but for the retained deadline settings, and the levels of the pins ALM0–ALM3. -/
structure FireUnit where
  zones : Vector Zone 4
  alm : Vector Bool 4
  deriving DecidableEq, Repr

/-! ## Attention (Chapter 10) -/

/-- The eleven causes, in the order of R171's table. -/
inductive Cause where
  | zoneAlarm | zoneSealed | faultCaptured | orderFinished | stationReady | returnWaiting | intakeExhausted | zoneRecovered
  | auditDone | quietEntered | woken
  deriving DecidableEq, Repr

/-- The fault kinds, in the order of R175's table. -/
inductive FaultKind where
  | linkSilent | shuttleFault | motionOverdue | labelMismatch | labelUnreadable | laneFault | laneOverdue | caught
  deriving DecidableEq, Repr

/-- What a capture carries (R175): the kind and the optional fields. -/
structure Capture where
  kind : FaultKind
  shuttle : Option Aisle
  order : Option OrderNo
  bin : Option BinNo
  stage : Option RunStage
  code : Option Byte
  deriving DecidableEq, Repr

/-- The fault record when FULL (R175). -/
structure FaultRecord where
  first : Capture
  further : Bool
  deriving DecidableEq, Repr

/-- The state the Attention Unit owns (R171, R175): bit n−1 of `latches` is the latch of event cause n. -/
structure AttentionUnit where
  latches : BitVec 11
  fault : Option FaultRecord
  deriving DecidableEq, Repr

/-! ## The request window (Chapter 9) -/

/-- The completion codes, in the order of their values (R183). -/
inductive Code where
  | ok | cancelTaken | zoneReleased | shuttleFaulted | noRecord | duplicate | tableFull | badOperand | wrongState
  | wrongStage | wrongPlace | inUse | access | length | overlap | segmentInUse | changedPending | zoneLocked
  | stationClosed | stationFull | outBusy | notPresented | binFull | itemsOut | origin | limit | overdue | blocked
  | heldForOther | holdLimit | renewLimit | dayBackward | noOrderEntry | quiet | auditRunning | nothingFinished
  | dropFull | sequenceRefused | starting
  deriving DecidableEq, Repr

/-- The answer cells A0 to A3 (R161). -/
structure Answer where
  a0 : Word := 0
  a1 : Word := 0
  a2 : Word := 0
  a3 : Word := 0
  deriving DecidableEq, Repr

/-- The operands latched with a request: P0 to P5 and CONTEXT (R163). -/
structure Operands where
  p : Vector Word 6
  context : Word
  deriving DecidableEq, Repr

/-- A request whose evaluation waits for a STATUS exchange (R165). -/
inductive WaitKind where
  | resumeOrder (o : OrderNo)
  | reviveShuttle (a : Aisle)
  deriving DecidableEq, Repr

/-- The request under evaluation while it waits, with its latched operands. -/
structure Waiting where
  kind : WaitKind
  operands : Operands
  deriving DecidableEq, Repr

/-- The progress of a release sequence (R150). -/
inductive Release where
  | none
  | first (z : ZoneNo)
  | second (z : ZoneNo)
  deriving DecidableEq, Repr

/-- The state the Request Window owns, with the ENABLE and LEVELS cells (R161, R172). -/
structure Window where
  request : Word
  busy : Bool
  collided : Bool
  code : Code
  context : Word
  p : Vector Word 6
  a : Answer
  enable : BitVec 11
  levels : BitVec 6
  release : Release
  waiting : Option Waiting
  deriving DecidableEq, Repr

/-- Whether the part is in a power-on reset (from RESET asserted until start-up has ended) or running (R169). -/
inductive Phase where
  | starting | running
  deriving DecidableEq, Repr

end Sys2Proof.Machine
end

