-- ==== Sys2Proof/Machine/Codes.lean ====
section
/-! DEFINITION. The codings of Chapter 11: enumerated values (R179), cells and bytes (R178), completion codes (R183), link
codes (R184) and lane codes (R186). -/

namespace Sys2Proof.Machine

/-- The mark for none in a whole cell (R178). -/
def noneWord : Word := 0xFFFF

/-- The mark for none in a byte (R178). -/
def noneByte : Nat := 0xFF

/-- A cell holding two values, the first in its high byte (R178). -/
def bytePair (hi lo : Nat) : Word := word (hi % 256 * 256 + lo % 256)

/-- A number, or the mark for none in a whole cell (R178, R180). -/
def wordOrNone : Option Nat → Word
  | none => noneWord
  | some n => word n

/-- A number, or the mark for none in a byte (R178, R180). -/
def byteOrNone : Option Nat → Nat
  | none => noneByte
  | some n => n

/-- A flag: 1 for set (R179). -/
def flagCode (b : Bool) : Nat := if b then 1 else 0

/-- The high part of a two-cell number (R178). -/
def highPart (n : Nat) : Word := word (n / 65536)

/-- The low sixteen bits of a two-cell number (R178). -/
def lowPart (n : Nat) : Word := word n

/-! ## Enumerations (R179) -/

def BinKind.code : BinKind → Nat
  | .collection => 0 | .intake => 1 | .hold => 2

def BinKind.ofCode : Nat → Option BinKind
  | 0 => some .collection | 1 => some .intake | 2 => some .hold | _ => none

def Direction.code : Direction → Nat
  | .up => 0 | .down => 1

def Direction.ofCode : Nat → Option Direction
  | 0 => some .up | 1 => some .down | _ => none

def AccessClass.code : AccessClass → Nat
  | .openClass => 0 | .inBuilding => 1 | .view => 2 | .closedClass => 3

def AccessClass.ofCode : Nat → Option AccessClass
  | 0 => some .openClass | 1 => some .inBuilding | 2 => some .view | 3 => some .closedClass | _ => none

def Category.code : Category → Nat
  | .student => 0 | .researcher => 1 | .staff => 2 | .desk => 3

def Category.ofCode : Nat → Option Category
  | 0 => some .student | 1 => some .researcher | 2 => some .staff | 3 => some .desk | _ => none

/-- The row of the category table (R29, R35). -/
def Category.row : Category → Fin 4
  | .student => 0 | .researcher => 1 | .staff => 2 | .desk => 3

def Position.code : Position → Nat
  | .intake => 0 | .hold => 1

def Position.ofCode : Nat → Option Position
  | 0 => some .intake | 1 => some .hold | _ => none

/-- A station with its position: 0–3, and 4 for INTAKE, 5 for HOLD (R179). -/
def Dest.code : Dest → Nat
  | .pick s => s.val | .ret .intake => 4 | .ret .hold => 5

def Place.code : Place → Nat
  | .home => 0 | .onShuttle _ => 1 | .portOut _ => 2 | .portIn _ => 3 | .crossing => 4 | .atStation _ => 5
  | .stationOut _ => 6 | .stranded => 7 | .unverified => 8 | .missing => 9

/-- The qualifier a place carries (R11). -/
def Place.qualifier : Place → Option Nat
  | .onShuttle a => some a.val
  | .portOut a => some a.val
  | .portIn a => some a.val
  | .atStation d => some d.code
  | .stationOut s => some s.val
  | _ => none

def ItemState.code : ItemState → Nat
  | .shelved _ => 0 | .held _ => 1 | .picked _ _ => 2 | .onLoan _ _ _ => 3 | .dropped => 4 | .lost => 5

def OrderKind.code : OrderKind → Nat
  | .fetch => 0 | .stow => 1 | .probe => 2 | .restore => 3

def Source.code : Source → Nat
  | .host => 0 | .returnStation => 1 | .recovery => 2 | .audit => 3

def RunStage.code : RunStage → Nat
  | .queued => 0 | .seeking => 1 | .lifting => 2 | .carrying => 3 | .holding => 4 | .handing => 5 | .waitingLane => 6
  | .crossing => 7 | .takingOn => 8 | .returning => 9 | .lowering => 10 | .probing => 11

def Stage.code : Stage → Nat
  | .run r => r.code | .halted _ => 12 | .finished _ => 13

def Outcome.code : Outcome → Nat
  | .ok => 0 | .cancelled => 1 | .fire => 2 | .absent => 3 | .found => 4 | .mismatch => 5 | .unreadable => 6 | .fault => 7

def HaltReason.code : HaltReason → Nat
  | .fault => 0 | .silent => 1 | .fire => 2

def ShuttleState.code : ShuttleState → Nat
  | .offline => 0 | .idle => 1 | .busy => 2 | .faulted => 3 | .parked => 4 | .caught => 5

def StationState.code : StationState → Nat
  | .closed => 0 | .opened => 1 | .fireHeld _ => 2

/-- The remembered state, present in FIRE_HELD, coded as a station state (R99, R179). -/
def StationState.remembered : StationState → Option Nat
  | .fireHeld true => some 1
  | .fireHeld false => some 0
  | _ => none

def PosState.code : PosState → Nat
  | .empty => 0 | .wanting => 1 | .arriving _ => 2 | .presented _ => 3 | .fullWaiting _ => 4

def ZoneState.code : ZoneState → Nat
  | .normal => 0 | .alarm _ => 1 | .sealed => 2 | .recovery => 3

def FaultKind.code : FaultKind → Nat
  | .linkSilent => 0 | .shuttleFault => 1 | .motionOverdue => 2 | .labelMismatch => 3 | .labelUnreadable => 4
  | .laneFault => 5 | .laneOverdue => 6 | .caught => 7

/-- The number of an attention cause (R171). -/
def Cause.number : Cause → Nat
  | .zoneAlarm => 1 | .zoneSealed => 2 | .faultCaptured => 3 | .orderFinished => 4 | .stationReady => 5
  | .returnWaiting => 6 | .intakeExhausted => 7 | .zoneRecovered => 8 | .auditDone => 9 | .quietEntered => 10
  | .woken => 11

/-- The mark of the command in flight in READ SHUTTLE: 0 stands for no command (R182). -/
def CommandMark.code : CommandMark → Nat
  | .sent => 1 | .unconfirmed => 2 | .accepted => 3

/-! ## Completion codes (R183) -/

def Code.value : Code → Nat
  | .ok => 0x00 | .cancelTaken => 0x01 | .zoneReleased => 0x02 | .shuttleFaulted => 0x03 | .noRecord => 0x04
  | .duplicate => 0x05 | .tableFull => 0x06 | .badOperand => 0x07 | .wrongState => 0x08 | .wrongStage => 0x09
  | .wrongPlace => 0x0A | .inUse => 0x0B | .access => 0x0C | .length => 0x0D | .overlap => 0x0E
  | .segmentInUse => 0x0F | .changedPending => 0x10 | .zoneLocked => 0x11 | .stationClosed => 0x12
  | .stationFull => 0x13 | .outBusy => 0x14 | .notPresented => 0x15 | .binFull => 0x16 | .itemsOut => 0x17
  | .origin => 0x18 | .limit => 0x19 | .overdue => 0x1A | .blocked => 0x1B | .heldForOther => 0x1C
  | .holdLimit => 0x1D | .renewLimit => 0x1E | .dayBackward => 0x1F | .noOrderEntry => 0x20 | .quiet => 0x21
  | .auditRunning => 0x22 | .nothingFinished => 0x23 | .dropFull => 0x24 | .sequenceRefused => 0x25
  | .starting => 0x26

/-! ## Link codes (R184) -/

/-- The command code of a motion command. -/
def Motion.code : Motion → Nat
  | .travel _ => 0x01 | .lift => 0x02 | .lower => 0x03 | .probe => 0x04 | .toPort => 0x05 | .handOff => 0x06
  | .takeOn => 0x07 | .park => 0x08

/-- The command code of STATUS. -/
def statusCommand : Nat := 0x10

/-- The argument bytes of a motion command: TRAVEL's position, high byte first. -/
def Motion.arguments : Motion → List Nat
  | .travel t => [t / 256 % 256, t % 256]
  | _ => []

/-- A position as on the link: 0–511, 0200 (hex) PORT, 0201 (hex) PARK. -/
def RackPos.code : RackPos → Nat
  | .rack n => n | .port => 0x200 | .park => 0x201

/-! ## Lane codes (R186) -/

/-- The source code driven on LSRC0–3. -/
def Requester.code : Requester → Nat
  | .port a => a.val + 1
  | .station s => s.val + 8

/-- The destination code driven on LDST0–3. -/
def CrossDest.code : CrossDest → Nat
  | .portIn a => a.val + 1
  | .station (.pick s) => s.val + 8
  | .station (.ret .intake) => 12
  | .station (.ret .hold) => 13

/-- The place of a requester in the cyclic order of R92. -/
def Requester.index : Requester → Fin 11
  | .port a => ⟨a.val, by omega⟩
  | .station s => ⟨s.val + 6, by omega⟩

/-- The requesters in the cyclic order of R92. -/
def requesters : List Requester :=
  [.port 0, .port 1, .port 2, .port 3, .port 4, .port 5, .station 0, .station 1, .station 2, .station 3, .station 4]

end Sys2Proof.Machine
end

