-- ==== Sys2Proof/Machine/Initial.lean ====
section
/-! DEFINITION. The values that formatting and a power-on reset write, block by block. -/

namespace Sys2Proof.Machine

/-- A descriptor as formatting writes it (R1). -/
def formattedSegment : Segment :=
  { valid := false, aisle := 0, base := 0, length := 1, direction := .up, cls := .openClass, changed := false }

/-- The category defaults (R35). -/
def defaultCategories : Vector CategoryRow 4 :=
  #v[⟨20, 28⟩, ⟨40, 90⟩, ⟨60, 120⟩, ⟨63, 180⟩]

/-- The tables as formatting writes them (R21). -/
def formattedTables : Tables :=
  { segments := Vector.replicate 32 formattedSegment
    bins := []
    items := []
    patrons := []
    categories := defaultCategories
    day := 0
    supervised := Vector.replicate 5 false
    deadlines := Vector.replicate 4 Config.defaultDeadline }

/-- The Order Unit after either reset (R68). -/
def resetOrderUnit : OrderUnit :=
  { orders := Vector.replicate 32 none
    queues := Vector.replicate 6 []
    claims := []
    cursor := none
    sweep := false
    auditCount := 0
    quiet := .active }

/-- A shuttle record after either reset (R69); its offline poll is due and no revival waits (R78). -/
def resetShuttle : Shuttle :=
  { state := .offline, carried := none, order := none, command := none, deadline := none, position := .rack 0
    silence := 3, faultCode := 0, pollWait := none, revivalRetry := none }

/-- The link's output lines at rest: LDIR released, LTX at the marking level (R73). -/
def restingLine : LineBit := { ldir := false, ltx := true }

/-- The Aisle Link Controller after either reset (R69, R78, R73): each rotation stands so that address 1 comes next, and the line is
at rest. -/
def resetLinkUnit : LinkUnit :=
  { shuttles := Vector.replicate 6 resetShuttle
    slots := Vector.replicate 6 none
    last2 := 5
    last3 := 5
    last4 := 5
    exchange := none
    line := [restingLine] }

/-- The Lane Controller after a power-on reset (R90, R93, R98), zone 3 being NORMAL. -/
def resetLaneUnit : LaneUnit :=
  { outPlaces := Vector.replicate 6 none
    inPlaces := Vector.replicate 6 none
    crossing := none
    pointer := 10
    lsrc := 0
    ldst := 0
    lstop := false
    lgoPulses := 0 }

/-- The Station Unit after a power-on reset (R99, R127), zone 3 being NORMAL. -/
def resetStationUnit : StationUnit :=
  { states := Vector.replicate 5 .closed
    queues := Vector.replicate 4 []
    reserved := Vector.replicate 4 0
    outs := Vector.replicate 5 none
    intake := .empty
    hold := .empty }

/-- The Fire Interlock Unit after a power-on reset with all four alarm lines inactive (R159). -/
def resetFireUnit : FireUnit :=
  { zones := Vector.replicate 4 { state := .normal, line := false, clr := false }
    alm := Vector.replicate 4 false }

/-- The Attention Unit after a power-on reset with no zone sealed (R175, R177). -/
def resetAttentionUnit : AttentionUnit :=
  { latches := 0, fault := none }

/-- The window while RESET is asserted and through start-up (R169, R162, R150). -/
def startingWindow : Window :=
  { request := 0, busy := true, collided := true, code := .starting, context := 0, p := Vector.replicate 6 0, a := {}
    enable := 0, levels := 0, release := .none, waiting := none }

end Sys2Proof.Machine
end

