-- ==== Sys2Proof/Machine/State.lean ====
section
/-! DEFINITION. The whole state of the 612, its stops, and the state right after a power-on reset. -/

namespace Sys2Proof.Machine

/-- The state of the 612: the retained memory (R19), then block by block the volatile state (00 B), and the queue of the
commands that wait. -/
structure State where
  /-- The format mark (R21). -/
  formatMark : Bool
  /-- The pending-update record (R20). -/
  pendingUpdate : Option PendingUpdate
  /-- The retained tables (R19). -/
  tab : Tables
  /-- The drop list (R136). -/
  dropList : List Tag
  ou : OrderUnit
  alc : LinkUnit
  lc : LaneUnit
  su : StationUnit
  fiu : FireUnit
  au : AttentionUnit
  win : Window
  phase : Phase
  /-- What the last host read put on D0–D15 (R162). -/
  dataOut : Word
  /-- The commands that wait, first in, first out. -/
  pending : List Instr
  deriving DecidableEq, Repr

/-- Why the machine stops with a fault: the spec stops it nowhere, so there is no reason. Raised by nobody. -/
inductive Fault where
  deriving DecidableEq, Repr

/-- Why a command has no meaning. -/
inductive Refusal where
  /-- The command is not modelled yet. No arm of exec raises it. Safe: the model stops where the hardware goes on. -/
  | notModelled (mnemonic : String)
  deriving DecidableEq, Repr

/-- The state right after a power-on reset whose start-up has formatted the memory and ended, all four alarm lines inactive
(12 A, R169, R170; log entry 2). -/
def State.reset : State :=
  { formatMark := true
    pendingUpdate := none
    tab := formattedTables
    dropList := []
    ou := resetOrderUnit
    alc := resetLinkUnit
    lc := resetLaneUnit
    su := resetStationUnit
    fiu := resetFireUnit
    au := resetAttentionUnit
    win := { startingWindow with busy := false }
    phase := .running
    dataOut := 0
    pending := [] }

end Sys2Proof.Machine
end

