-- ==== Sys2Proof/Machine/Table.lean ====
section
/-! DEFINITION. The operations on a retained table keyed by number, each of which keeps its keys strictly rising (log entry 5),
and the change of every record of a fixed row of records. -/

namespace Sys2Proof.Machine

variable {α : Type}

/-- A row of records with every record changed. -/
def mapRow {β : Type} {n : Nat} (f : α → β) (v : Vector α n) : Vector β n := ⟨⟨v.toList.map f⟩, by simp⟩

/-- The record under a key. -/
def tableFind (k : Nat) : Table α → Option α
  | [] => none
  | (k', v) :: t => if k' = k then some v else tableFind k t

/-- The table with a record written under a key. -/
def tableInsert (k : Nat) (v : α) : Table α → Table α
  | [] => [(k, v)]
  | (k', v') :: t =>
    if k < k' then (k, v) :: (k', v') :: t
    else if k = k' then (k, v) :: t
    else (k', v') :: tableInsert k v t

/-- The table without the record under a key. -/
def tableErase (k : Nat) : Table α → Table α
  | [] => []
  | (k', v) :: t => if k' = k then t else (k', v) :: tableErase k t

/-- The table with the record under a key changed; a table without that key is left as it is. -/
def tableUpdate (k : Nat) (f : α → α) : Table α → Table α
  | [] => []
  | (k', v) :: t => if k' = k then (k', f v) :: t else (k', v) :: tableUpdate k f t

/-- The table with every record changed. -/
def tableMap (f : α → α) : Table α → Table α
  | [] => []
  | (k, v) :: t => (k, f v) :: tableMap f t

/-- Every key lies above a bound and the keys rise strictly. -/
def tableAbove (bound : Nat) : Table α → Bool
  | [] => true
  | (k, _) :: t => decide (bound < k) && tableAbove k t

/-- The canonical form: the keys rise strictly. -/
def tableSorted : Table α → Bool
  | [] => true
  | (k, _) :: t => tableAbove k t

/-- Every key lies in a range. -/
def tableKeysIn (lo hi : Nat) : Table α → Bool
  | [] => true
  | (k, _) :: t => decide (lo ≤ k) && decide (k ≤ hi) && tableKeysIn lo hi t

end Sys2Proof.Machine
end

