-- ==== Sys2Proof/Machine/Ops.lean ====
section
/-! DEFINITION. The named operations by which every meaning reads and writes the records: segments and bins, items and
patrons, orders, shuttles and their messages, port places, stations, zones and the fault record. -/

namespace Sys2Proof.Machine

/-! ## Index lists -/

def aisles : List Aisle := [0, 1, 2, 3, 4, 5]
def zones : List ZoneNo := [0, 1, 2, 3]
def stations : List StationNo := [0, 1, 2, 3, 4]
def pickStations : List PickNo := [0, 1, 2, 3]
def positions : List Position := [.intake, .hold]

def orderNumbers : List OrderNo :=
  [0, 1, 2, 3, 4, 5, 6, 7, 8, 9, 10, 11, 12, 13, 14, 15] ++ [16, 17, 18, 19, 20, 21, 22, 23, 24, 25, 26, 27, 28, 29, 30, 31]

def segmentNumbers : List SegNo :=
  [0, 1, 2, 3, 4, 5, 6, 7, 8, 9, 10, 11, 12, 13, 14, 15] ++ [16, 17, 18, 19, 20, 21, 22, 23, 24, 25, 26, 27, 28, 29, 30, 31]

/-- A number as an index below a bound, absent where it is not one. -/
def index? (bound n : Nat) : Option (Fin bound) :=
  if h : n < bound then some ⟨n, h⟩ else none

/-- A number as a bin number 0–2047. -/
def bin? (n : Nat) : Option BinNo := index? 2048 n

/-- The station a pick station is (R99). -/
def pickStation (s : PickNo) : StationNo := ⟨s.val, by omega⟩

/-- A station as a pick station, absent for station 4. -/
def asPick? (s : StationNo) : Option PickNo := index? 4 s.val

/-- The return station (R99). -/
def returnStation : StationNo := 4

/-- The zone of an aisle (R3). -/
def zoneOf (a : Aisle) : ZoneNo := ⟨a.val / 2, by omega⟩

/-- The front hall (08 A). -/
def frontHall : ZoneNo := 3

/-- The aisles, and so the shuttles, of a zone: none for zone 3 (08 A). -/
def shuttlesOf (z : ZoneNo) : List Aisle := aisles.filter fun a => zoneOf a == z

/-! ## Segments and bins (R2, R4, R11) -/

/-- The segment of a bin number (R2). -/
def segOf (b : BinNo) : SegNo := ⟨b.val / 64, by omega⟩

/-- The offset of a bin number in its segment (R2). -/
def offsetOf (b : BinNo) : Nat := b.val % 64

/-- Whether an offset is valid by a descriptor's direction and length (R2). -/
def Segment.holdsOffset (d : Segment) (f : Nat) : Bool :=
  match d.direction with
  | .up => decide (f < d.length)
  | .down => decide (64 - d.length ≤ f) && decide (f ≤ 63)

/-- The home position of an offset (R2). -/
def Segment.homePosition (d : Segment) (f : Nat) : Nat :=
  match d.direction with
  | .up => d.base + f
  | .down => d.base - (63 - f)

/-- The lowest position of the home range (R2). -/
def Segment.lowest (d : Segment) : Nat :=
  match d.direction with
  | .up => d.base
  | .down => d.base + 1 - d.length

/-- The highest position of the home range (R2). -/
def Segment.highest (d : Segment) : Nat :=
  match d.direction with
  | .up => d.base + d.length - 1
  | .down => d.base

def State.segment (s : State) (g : SegNo) : Segment := s.tab.segments[g]

def State.putSegment (g : SegNo) (d : Segment) (s : State) : State :=
  { s with tab.segments := s.tab.segments.set g d }

/-- The segment descriptor of a bin. -/
def State.segmentOf (s : State) (b : BinNo) : Segment := s.segment (segOf b)

/-- The access class a check on a bin reads (R5). -/
def State.classOf (s : State) (b : BinNo) : AccessClass := (s.segmentOf b).cls

def State.homeAisle (s : State) (b : BinNo) : Aisle := (s.segmentOf b).aisle

def State.homePosition (s : State) (b : BinNo) : Nat := (s.segmentOf b).homePosition (offsetOf b)

/-- Sets the changed flag of a bin's segment (R9). -/
def State.markChanged (b : BinNo) (s : State) : State :=
  s.putSegment (segOf b) { s.segmentOf b with changed := true }

def State.binRec? (s : State) (b : BinNo) : Option BinRec := tableFind b.val s.tab.bins

def State.putBin (b : BinNo) (r : BinRec) (s : State) : State :=
  { s with tab.bins := tableInsert b.val r s.tab.bins }

def State.eraseBin (b : BinNo) (s : State) : State :=
  { s with tab.bins := tableErase b.val s.tab.bins }

/-- Changes the record of an enrolled bin; a number without a record is left as it is. -/
def State.changeBin (b : BinNo) (f : BinRec → BinRec) (s : State) : State :=
  { s with tab.bins := tableUpdate b.val f s.tab.bins }

def State.setPlace (b : BinNo) (p : Place) (s : State) : State :=
  s.changeBin b fun r => { r with place := p }

def State.setHolder (b : BinNo) (h : Option OrderNo) (s : State) : State :=
  s.changeBin b fun r => { r with holder := h }

/-- Raises a bin's item count by 1 and sends the changed-flag claim (R9). -/
def State.countIn (b : BinNo) (s : State) : State :=
  (s.changeBin b fun r => { r with itemCount := r.itemCount + 1 }).markChanged b

/-- Lowers a bin's item count by 1 and sends the changed-flag claim (R9). -/
def State.countOut (b : BinNo) (s : State) : State :=
  (s.changeBin b fun r => { r with itemCount := r.itemCount - 1 }).markChanged b

/-- Raises a bin's picked-out count by 1. -/
def State.pickedOutUp (b : BinNo) (s : State) : State :=
  s.changeBin b fun r => { r with pickedOut := r.pickedOut + 1 }

/-- Lowers a bin's picked-out count by 1. -/
def State.pickedOutDown (b : BinNo) (s : State) : State :=
  s.changeBin b fun r => { r with pickedOut := r.pickedOut - 1 }

/-- The bin numbers enrolled in a segment. -/
def State.enrolledIn (s : State) (g : SegNo) : List Nat :=
  (s.tab.bins.map (·.1)).filter fun n => n / 64 == g.val

/-! ## Items, patrons and the drop list (R23, R29, R136) -/

def State.item? (s : State) (t : Tag) : Option Item := tableFind t s.tab.items

def State.putItem (t : Tag) (i : Item) (s : State) : State :=
  { s with tab.items := tableInsert t i s.tab.items }

def State.eraseItem (t : Tag) (s : State) : State :=
  { s with tab.items := tableErase t s.tab.items }

def State.patron? (s : State) (n : PatronNo) : Option Patron := tableFind n s.tab.patrons

def State.putPatron (n : PatronNo) (p : Patron) (s : State) : State :=
  { s with tab.patrons := tableInsert n p s.tab.patrons }

def State.erasePatron (n : PatronNo) (s : State) : State :=
  { s with tab.patrons := tableErase n s.tab.patrons }

def State.changePatron (n : PatronNo) (f : Patron → Patron) (s : State) : State :=
  { s with tab.patrons := tableUpdate n f s.tab.patrons }

/-- The category row a check on a patron reads (R35). -/
def State.categoryRow (s : State) (c : Category) : CategoryRow := s.tab.categories[c.row]

/-- The due day of an item on loan; 0 for any other. -/
def State.dueOf (s : State) (t : Tag) : Nat :=
  match s.item? t with
  | some { state := .onLoan _ due _, holds := _ } => due
  | _ => 0

/-- Adds an entry with due day `d` to a loan list: directly after every entry due on `d` or before (R116). -/
def loanInsert (dueOf : Tag → Nat) (d : Nat) (t : Tag) : List Tag → List Tag
  | [] => [t]
  | x :: rest => if dueOf x ≤ d then x :: loanInsert dueOf d t rest else t :: x :: rest

/-- Adds an item to a patron's loan list (R116). -/
def State.addLoan (n : PatronNo) (t : Tag) (due : Nat) (s : State) : State :=
  s.changePatron n fun p => { p with loans := loanInsert s.dueOf due t p.loans }

/-- Takes an item out of a patron's loan list (R116). -/
def State.removeLoan (n : PatronNo) (t : Tag) (s : State) : State :=
  s.changePatron n fun p => { p with loans := p.loans.erase t }

/-- Moves an item within a patron's loan list to a new due day: out of its place, then in afresh (R116). -/
def State.moveLoan (n : PatronNo) (t : Tag) (due : Nat) (s : State) : State :=
  s.changePatron n fun p => { p with loans := loanInsert s.dueOf due t (p.loans.erase t) }

/-- The index of an item in a patron's loan list, 0 for the head. -/
def State.loanIndex (s : State) (n : PatronNo) (t : Tag) : Nat :=
  match s.patron? n with
  | some p => p.loans.idxOf t
  | none => 0

/-- The loan count of a patron (R29). -/
def State.loanCount (s : State) (n : PatronNo) : Nat :=
  match s.patron? n with
  | some p => p.loans.length
  | none => 0

def State.holdCountUp (n : PatronNo) (s : State) : State :=
  s.changePatron n fun p => { p with holdCount := p.holdCount + 1 }

def State.holdCountDown (n : PatronNo) (s : State) : State :=
  s.changePatron n fun p => { p with holdCount := p.holdCount - 1 }

/-- Lowers the hold count of every patron of a hold list that is emptied (R122). -/
def State.dropHolds : List PatronNo → State → State
  | [], s => s
  | n :: rest, s => State.dropHolds rest (s.holdCountDown n)

/-- The state of an item lying in a bin, after a change of its hold list (R122). -/
def State.stateByHolds (s : State) (holds : List PatronNo) : ItemState → ItemState
  | .shelved b =>
    match s.binRec? b with
    | some r => if r.kind = .hold ∧ holds ≠ [] then .held b else .shelved b
    | none => .shelved b
  | .held b => if holds = [] then .shelved b else .held b
  | other => other

/-- The tags of the DROPPED items in tag order (R136). -/
def droppedTags : Table Item → List Tag
  | [] => []
  | (t, i) :: rest => if i.state = .dropped then t :: droppedTags rest else droppedTags rest

/-- The route of an item (R134). -/
def routeOf (i : Item) : Position := if i.holds = [] then .intake else .hold

/-! ## Orders, queues and claims (R40, R48, R60) -/

def State.order? (s : State) (o : OrderNo) : Option Order := s.ou.orders[o]

def State.putOrder (o : OrderNo) (r : Order) (s : State) : State :=
  { s with ou.orders := s.ou.orders.set o (some r) }

def State.freeOrder (o : OrderNo) (s : State) : State :=
  { s with ou.orders := s.ou.orders.set o none }

/-- The lowest-numbered free entry (R41). -/
def State.freeEntry? (s : State) : Option OrderNo := orderNumbers.find? fun o => (s.order? o).isNone

def State.queue (s : State) (a : Aisle) : List OrderNo := s.ou.queues[a]

def State.setQueue (a : Aisle) (q : List OrderNo) (s : State) : State :=
  { s with ou.queues := s.ou.queues.set a q }

/-- The priority of an order, for the queue order of R48. -/
def State.priorityOf (s : State) (o : OrderNo) : Nat :=
  match s.order? o with
  | some r => r.priority.val
  | none => 0

/-- Puts an order behind every order of its priority or a higher one (R48). -/
def queueInsert (priorityOf : OrderNo → Nat) (o : OrderNo) : List OrderNo → List OrderNo
  | [] => [o]
  | x :: rest => if priorityOf o ≤ priorityOf x then x :: queueInsert priorityOf o rest else o :: x :: rest

/-- An order joins its aisle queue (R48). -/
def State.joinQueue (a : Aisle) (o : OrderNo) (s : State) : State :=
  s.setQueue a (queueInsert s.priorityOf o (s.queue a))

/-- An order leaves its aisle queue, if it stands in it (R48). -/
def State.leaveQueue (a : Aisle) (o : OrderNo) (s : State) : State :=
  s.setQueue a ((s.queue a).filter (· ≠ o))

def Order.isFinished (r : Order) : Bool :=
  match r.stage with
  | .finished _ => true
  | _ => false

def Order.isHalted (r : Order) : Bool :=
  match r.stage with
  | .halted _ => true
  | _ => false

/-- The step an order has reached, as a capture names it: its stage, or its stage at halt (R83). -/
def Order.stageReached (r : Order) : Option RunStage :=
  match r.stage with
  | .run st => some st
  | .halted h => some h.stageAt
  | .finished _ => none

/-- Whether an entry holds an order that is neither free nor FINISHED. -/
def State.unfinished (s : State) (o : OrderNo) : Bool :=
  match s.order? o with
  | some r => !r.isFinished
  | none => false

/-- The claimant of a claim, as its place in the order of R61: recovery RESTOREs by shuttle (which is by zone and then by
shuttle), dismissals, fetches, INTAKE before HOLD, then the audit cursor. -/
def Claim.rank : Claim → Nat
  | .restore a _ => a.val
  | .dismissal .intake => 6
  | .dismissal .hold => 7
  | .fetch .intake => 8
  | .fetch .hold => 9
  | .audit _ => 10

/-- Whether a claimant has a claim in the list. -/
def State.claims (s : State) (rank : Nat) : Bool := s.ou.claims.any (·.rank == rank)

/-- A claimant's claims leave the list. -/
def State.withdrawClaims (ranks : List Nat) (s : State) : State :=
  { s with ou.claims := s.ou.claims.filter fun c => !ranks.contains c.rank }

/-- A claim joins the list; no claimant appears in it twice (R60). -/
def State.fileClaim (c : Claim) (s : State) : State :=
  { s with ou.claims := s.ou.claims.filter (fun c' => c'.rank != c.rank) ++ [c] }

/-- The fetch claim mark of a position (R127). -/
def State.fetchMark (s : State) (p : Position) : Bool := s.claims (Claim.fetch p).rank

/-- The dismissal claim mark of a position (R127). -/
def State.dismissalMark (s : State) (p : Position) : Bool := s.claims (Claim.dismissal p).rank

/-! ## Zones (R141, R142) -/

def State.zone (s : State) (z : ZoneNo) : Zone := s.fiu.zones[z]

def State.zoneState (s : State) (z : ZoneNo) : ZoneState := (s.zone z).state

/-- Writes a zone's state. Its CLR line is asserted exactly while it is SEALED (R142). -/
def State.setZoneState (z : ZoneNo) (st : ZoneState) (s : State) : State :=
  { s with fiu.zones := s.fiu.zones.set z { s.zone z with state := st, clr := decide (st = .sealed) } }

def State.setLine (z : ZoneNo) (active : Bool) (s : State) : State :=
  { s with fiu.zones := s.fiu.zones.set z { s.zone z with line := active } }

def State.zoneNormal (s : State) (z : ZoneNo) : Bool := decide (s.zoneState z = .normal)

def State.zoneAlarm (s : State) (z : ZoneNo) : Bool :=
  match s.zoneState z with
  | .alarm _ => true
  | _ => false

/-- Whether the zone of an aisle is NORMAL. -/
def State.aisleNormal (s : State) (a : Aisle) : Bool := s.zoneNormal (zoneOf a)

/-- Whether a bin's home zone is NORMAL (R3). -/
def State.homeNormal (s : State) (b : BinNo) : Bool := s.aisleNormal (s.homeAisle b)

/-- Whether zone 3 is NORMAL. -/
def State.hallNormal (s : State) : Bool := s.zoneNormal frontHall

/-! ## Shuttles and the send list (R69, R78) -/

def State.shuttle (s : State) (a : Aisle) : Shuttle := s.alc.shuttles[a]

def State.putShuttle (a : Aisle) (r : Shuttle) (s : State) : State :=
  { s with alc.shuttles := s.alc.shuttles.set a r }

def State.changeShuttle (a : Aisle) (f : Shuttle → Shuttle) (s : State) : State :=
  s.putShuttle a (f (s.shuttle a))

def State.slot (s : State) (a : Aisle) : Option Message := s.alc.slots[a]

def State.setSlot (a : Aisle) (m : Option Message) (s : State) : State :=
  { s with alc.slots := s.alc.slots.set a m }

/-- The current order of a shuttle, with its number. -/
def State.currentOrder? (s : State) (a : Aisle) : Option (OrderNo × Order) :=
  match (s.shuttle a).order with
  | none => none
  | some o =>
    match s.order? o with
    | none => none
    | some r => some (o, r)

/-- The Order Unit gives a command for a shuttle: it waits in the slot and is the command in flight, marked SENT (R80). -/
def State.giveCommand (a : Aisle) (m : Motion) (fire : Bool) (s : State) : State :=
  (s.changeShuttle a fun r => { r with command := some ⟨m, .sent, fire⟩, deadline := none }).setSlot a
    (some (.command m fire))

/-- The command in flight is cleared and its motion deadline stopped. -/
def State.clearCommand (a : Aisle) (s : State) : State :=
  s.changeShuttle a fun r => { r with command := none, deadline := none }

/-- The shuttle becomes IDLE and its current order is cleared (R70). -/
def State.goIdle (a : Aisle) (s : State) : State :=
  s.changeShuttle a fun r => { r with state := .idle, order := none }

/-- Whether the exchange in progress is with a shuttle. -/
def State.exchangeWith (s : State) (a : Aisle) : Bool :=
  match s.alc.exchange with
  | some x => x.shuttle == a
  | none => false

/-- Whether the exchange in progress carries a shuttle's motion command. -/
def State.commandExchange (s : State) (a : Aisle) : Bool :=
  match s.alc.exchange with
  | some { shuttle := b, kind := .command _, use := _, sent := _ } => b == a
  | _ => false

/-- An exchange whose result is limited if it is with a shuttle; a result to be discarded stays so. -/
def Exchange.limit (x : Exchange) (a : Aisle) (use : ResultUse) : Exchange :=
  if x.shuttle = a then { x with use := if x.use = .discard then .discard else use } else x

/-- What is made of the result of the exchange in progress with a shuttle from now on; a result to be discarded stays so (R82,
R85, R144). -/
def State.limitExchange (a : Aisle) (use : ResultUse) (s : State) : State :=
  { s with alc.exchange := s.alc.exchange.map fun x => x.limit a use }

/-! ## Port places and stations (R90, R99, R127) -/

def State.outPlace (s : State) (a : Aisle) : Option BinNo := s.lc.outPlaces[a]
def State.inPlace (s : State) (a : Aisle) : Option BinNo := s.lc.inPlaces[a]

def State.setOutPlace (a : Aisle) (b : Option BinNo) (s : State) : State :=
  { s with lc.outPlaces := s.lc.outPlaces.set a b }

def State.setInPlace (a : Aisle) (b : Option BinNo) (s : State) : State :=
  { s with lc.inPlaces := s.lc.inPlaces.set a b }

def State.stationState (s : State) (n : StationNo) : StationState := s.su.states[n]

def State.setStationState (n : StationNo) (st : StationState) (s : State) : State :=
  { s with su.states := s.su.states.set n st }

/-- Whether a station is FIRE_HELD (R99). -/
def StationState.isFireHeld : StationState → Bool
  | .fireHeld _ => true
  | _ => false

def State.stationOut (s : State) (n : StationNo) : Option BinNo := s.su.outs[n]

def State.setStationOut (n : StationNo) (b : Option BinNo) (s : State) : State :=
  { s with su.outs := s.su.outs.set n b }

def State.presentationQueue (s : State) (n : PickNo) : List BinNo := s.su.queues[n]

def State.setPresentationQueue (n : PickNo) (q : List BinNo) (s : State) : State :=
  { s with su.queues := s.su.queues.set n q }

/-- The presented bin of a pick station (R99). -/
def State.presented? (s : State) (n : PickNo) : Option BinNo := (s.presentationQueue n).head?

def State.reserved (s : State) (n : PickNo) : Nat := s.su.reserved[n]

def State.setReserved (n : PickNo) (k : Nat) (s : State) : State :=
  { s with su.reserved := s.su.reserved.set n k }

/-- The bins a pick station's queue and reservations take (R46, R99). -/
def State.stationLoad (s : State) (n : PickNo) : Nat := (s.presentationQueue n).length + s.reserved n

def State.supervised (s : State) (n : StationNo) : Bool := s.tab.supervised[n]

def State.position (s : State) : Position → PosState
  | .intake => s.su.intake
  | .hold => s.su.hold

def StationUnit.setPosition (u : StationUnit) (p : Position) (st : PosState) : StationUnit :=
  match p with
  | .intake => { u with intake := st }
  | .hold => { u with hold := st }

def State.setPosition (p : Position) (st : PosState) (s : State) : State :=
  { s with su := s.su.setPosition p st }

/-- The bin that stands in a position (R127). -/
def PosState.bin? : PosState → Option BinNo
  | .presented b => some b
  | .fullWaiting b => some b
  | _ => none

/-- Whether a position is PRESENTED. -/
def PosState.isPresented : PosState → Bool
  | .presented _ => true
  | _ => false

/-! ## Attention (R171, R175) -/

/-- Sets the latch of an event cause; a set latch stays set (R171). -/
def State.latch (c : Cause) (s : State) : State :=
  { s with au.latches := s.au.latches ||| BitVec.twoPow 11 (c.number - 1) }

/-- The fault record after a capture. -/
def captured (c : Capture) : Option FaultRecord → FaultRecord
  | none => ⟨c, false⟩
  | some f => { f with further := true }

/-- A capture fills an EMPTY record, or sets the further flag of a FULL one (R175). -/
def State.capture (c : Capture) (s : State) : State := { s with au.fault := some (captured c s.au.fault) }

/-! ## Ending a request (R165) -/

/-- In one step: the answer into A0–A3, the completion code into STATE, BUSY cleared (R165). -/
def State.endRequest (c : Code) (a : Answer) (s : State) : State :=
  { s with win.a := a, win.code := c, win.busy := false, win.waiting := none }

end Sys2Proof.Machine
end

