-- ==== Sys2Proof/Machine/Flags.lean ====
section
/-! DEFINITION. Attention: conditions and latches, enables and levels, the ATTN line and the CAUSE cell (Chapter 10). -/

namespace Sys2Proof.Machine

/-- The four groups of R171. -/
inductive Group where
  | a | b | c | d
  deriving DecidableEq, Repr

def groups : List Group := [.a, .b, .c, .d]

/-- The causes of each group, lowest number first (R171). -/
def Group.causes : Group → List Cause
  | .a => [.zoneAlarm, .zoneSealed]
  | .b => [.faultCaptured, .orderFinished]
  | .c => [.stationReady, .returnWaiting, .intakeExhausted]
  | .d => [.zoneRecovered, .auditDone, .quietEntered, .woken]

/-- Whether a cause is an event cause, with a latch (R171). -/
def Cause.isEvent : Cause → Bool
  | .faultCaptured => false
  | .orderFinished => false
  | .returnWaiting => false
  | _ => true

/-- The latches a CAUSE write can clear: the bits of the event causes (R174). -/
def eventMask : BitVec 11 := 0b11111010011#11

/-- ORDER_FINISHED: a FINISHED entry exists (R43, R171). -/
def State.orderFinishedPending (s : State) : Bool :=
  orderNumbers.any fun o =>
    match s.order? o with
    | some r => r.isFinished
    | none => false

/-- RETURN_WAITING: a tag of the drop list has a route position that is PRESENTED (R139). -/
def State.returnWaitingPending (s : State) : Bool :=
  s.dropList.any fun t =>
    match s.item? t with
    | some i => (s.position (routeOf i)).isPresented
    | none => false

/-- FAULT_CAPTURED: the fault record is FULL (R175). -/
def State.faultCapturedPending (s : State) : Bool := s.au.fault.isSome

/-- Whether a cause is pending: its latch is set, or its condition holds (R171). -/
def State.pendingCause (s : State) : Cause → Bool
  | .faultCaptured => s.faultCapturedPending
  | .orderFinished => s.orderFinishedPending
  | .returnWaiting => s.returnWaitingPending
  | c => s.au.latches.getLsbD (c.number - 1)

/-- A cause is signalled while it is both pending and enabled (R173). -/
def State.signalled (s : State) (c : Cause) : Bool :=
  s.pendingCause c && s.win.enable.getLsbD (c.number - 1)

/-- The level of a group: fixed at 3 for A, from LEVELS for the others (R172, R178). -/
def State.levelOf (s : State) : Group → Nat
  | .a => 3
  | .b => s.win.levels.toNat % 4
  | .c => s.win.levels.toNat / 4 % 4
  | .d => s.win.levels.toNat / 16 % 4

/-- The lowest-numbered signalled cause of a group. -/
def State.firstSignalled (s : State) (g : Group) : Option Cause := g.causes.find? s.signalled

/-- Of the groups with a signalled cause, the one of the highest level, and of equals the one that stands first (R173). -/
def State.bestCause (s : State) : List Group → Option (Nat × Cause)
  | [] => none
  | g :: rest =>
    match s.firstSignalled g, s.bestCause rest with
    | none, other => other
    | some c, none => some (s.levelOf g, c)
    | some c, some (l, c') => if l ≤ s.levelOf g then some (s.levelOf g, c) else some (l, c')

/-- The ATTN line (R173); it is released during start-up (R169). -/
def State.attn (s : State) : Bool :=
  s.phase == .running && groups.any fun g => (s.firstSignalled g).isSome

/-- What a read of CAUSE returns: the number of the cause to serve, or 0 (R173); 0 during start-up (R169). -/
def State.causeNumber (s : State) : Nat :=
  if s.phase = .starting then 0
  else
    match s.bestCause groups with
    | some (_, c) => c.number
    | none => 0

end Sys2Proof.Machine
end

