-- ==== Sys2Proof/Machine/Orders.lean ====
section
/-! DEFINITION. The Order Unit's work on orders: creating, finishing, dispatching, halting, and moving them from stage to
stage as commands complete (Chapter 3, with the label checks of Chapter 4). -/

namespace Sys2Proof.Machine

/-! ## Creating and finishing -/

/-- A new order, before its entry is known. -/
def plainOrder (kind : OrderKind) (source : Source) (bin : BinNo) (aisle : Aisle) (priority : Fin 4) (stage : RunStage)
    (dest : Option Dest) : Order :=
  { kind, source, bin, aisle, priority, stage := .run stage, dest, cancel := false, pendingOutcome := none }

/-- Fills an entry, sets the bin's holder, and queues the order if it is QUEUED (R41, R48). -/
def State.placeOrder (o : OrderNo) (r : Order) (s : State) : State :=
  let s := (s.putOrder o r).setHolder r.bin (some o)
  if r.stage = .run .queued then s.joinQueue r.aisle o else s

/-- A claim on a pick station's places: its reserved count rises by 1 (R100). -/
def State.reserve (n : PickNo) (s : State) : State := s.setReserved n (s.reserved n + 1)

/-- The release of a reservation (R100). -/
def State.unreserve (n : PickNo) (s : State) : State := s.setReserved n (s.reserved n - 1)

/-- The end of the FETCH a position waits for: the bin enters it on OK, and the position is EMPTY on any other outcome
(R130). -/
def State.endPositionFetch (p : Position) (o : OrderNo) (b : BinNo) (out : Outcome) (s : State) : State :=
  if s.position p = .arriving o then s.setPosition p (if out = .ok then .presented b else .empty) else s

/-- What the finishing of a FETCH does at its destination: the reservation is released, or the position takes the ending
(R43, R130). -/
def State.endDestination (o : OrderNo) (b : BinNo) (out : Outcome) (dest : Option Dest) (s : State) : State :=
  match dest with
  | some (.pick n) => s.unreserve n
  | some (.ret p) => s.endPositionFetch p o b out
  | none => s

/-- The order ceases to be the current order of its shuttle, if it was (R43). -/
def State.dropCurrent (a : Aisle) (o : OrderNo) (s : State) : State :=
  if (s.shuttle a).order = some o then s.changeShuttle a fun r => { r with order := none } else s

/-- The outcome an order takes: CANCELLED under the cancel mark, whatever event ends it (R42). -/
def Order.outcomeOf (r : Order) (out : Outcome) : Outcome := if r.cancel then .cancelled else out

/-- An order finishes (R43): FINISHED with its outcome and no pending outcome (R40), holder cleared, out of its queue, no longer
its shuttle's current order, its reservation released; an audit probe lowers the audit count. -/
def State.finishOrder (o : OrderNo) (out : Outcome) (s : State) : State :=
  match s.order? o with
  | none => s
  | some r =>
    let s := s.putOrder o { r with stage := .finished (r.outcomeOf out), pendingOutcome := none }
    let s := s.setHolder r.bin none
    let s := s.leaveQueue r.aisle o
    let s := s.dropCurrent r.aisle o
    let s := s.endDestination o r.bin (r.outcomeOf out) r.dest
    if r.source = .audit then { s with ou.auditCount := s.ou.auditCount - 1 } else s

/-- The shuttle becomes IDLE and its order finishes. -/
def State.finishIdle (a : Aisle) (o : OrderNo) (out : Outcome) (s : State) : State := (s.goIdle a).finishOrder o out

/-! ## Dispatch (R49, R50) -/

/-- The aisle-zone condition of R49. -/
def State.zoneAdmits (s : State) (r : Order) : Bool :=
  match s.zoneState (zoneOf r.aisle) with
  | .normal => true
  | .recovery => decide (r.kind = .restore) || decide (r.kind = .probe)
  | _ => false

/-- The quiet-state condition of R49. -/
def State.quietAdmits (s : State) (r : Order) : Bool :=
  match s.ou.quiet with
  | .active => true
  | .quiescing => decide (r.kind = .stow) || decide (r.source ≠ .host)
  | .quiet => decide (r.source = .recovery)

/-- The carried-bin condition of R49. -/
def State.carriedAdmits (s : State) (r : Order) : Bool :=
  match (s.shuttle r.aisle).carried with
  | none => true
  | some b => decide (r.kind = .restore) && decide (r.bin = b)

/-- An order is dispatchable (R49). -/
def State.dispatchable (s : State) (o : OrderNo) : Bool :=
  match s.order? o with
  | none => false
  | some r => s.zoneAdmits r && (decide (r.kind ≠ .stow) || s.hallNormal) && s.quietAdmits r && s.carriedAdmits r

/-- The first dispatchable order of an aisle, in queue order (R50). -/
def State.firstDispatchable? (s : State) (a : Aisle) : Option OrderNo := (s.queue a).find? s.dispatchable

/-- The shuttle is IDLE, or is PARKED for quiet running in a NORMAL zone and so treated as IDLE (R50). A slot that still holds
the STATUS of a REVIVE SHUTTLE takes no command until that STATUS has had its turn (R78, R89; log entry 17). -/
def State.readyForOrder (s : State) (a : Aisle) : Bool :=
  (s.slot a).isNone
    && match (s.shuttle a).state with
      | .idle => true
      | .parked => s.aisleNormal a && decide (s.ou.quiet ≠ .active)
      | _ => false

/-- The first stage and the first command of an order (R50). -/
def State.firstStep (s : State) (r : Order) : RunStage × Motion :=
  match r.kind with
  | .fetch => (.seeking, .travel (s.homePosition r.bin))
  | .probe => (.seeking, .travel (s.homePosition r.bin))
  | .stow => (.takingOn, .takeOn)
  | .restore => (.returning, .travel (s.homePosition r.bin))

/-- An order enters a stage, and the shuttle is given the command of that stage. -/
def State.enterStage (a : Aisle) (o : OrderNo) (r : Order) (st : RunStage) (m : Motion) (s : State) : State :=
  (s.putOrder o { r with stage := .run st }).giveCommand a m false

/-- An order is started on its shuttle (R50). -/
def State.startOrder (a : Aisle) (o : OrderNo) (s : State) : State :=
  match s.order? o with
  | none => s
  | some r =>
    let step := s.firstStep r
    let s := s.leaveQueue a o
    let s := s.changeShuttle a fun h => { h with state := .busy, order := some o }
    s.enterStage a o r step.1 step.2

/-- The Order Unit looks for an order to dispatch in an aisle (R50). -/
def State.dispatch (a : Aisle) (s : State) : State :=
  if s.readyForOrder a then
    match s.firstDispatchable? a with
    | some o => s.startOrder a o
    | none => s
  else s

/-- In quiet running, an IDLE shuttle of a NORMAL zone with no dispatchable order and no carried bin is sent PARK (R65,
R84). -/
def State.quietPark (a : Aisle) (s : State) : State :=
  if decide (s.ou.quiet ≠ .active) && decide ((s.shuttle a).state = .idle) && (s.slot a).isNone && s.aisleNormal a
      && (s.shuttle a).carried.isNone && (s.firstDispatchable? a).isNone then
    (s.changeShuttle a fun h => { h with state := .busy, order := none }).giveCommand a .park false
  else s

/-! ## Halting (R57) -/

/-- The command of a stage that has a shuttle; the command HOLDING records is TO_PORT (R41, R57). -/
def State.stageCommand? (s : State) (r : Order) : RunStage → Option Motion
  | .seeking => some (.travel (s.homePosition r.bin))
  | .lifting => some .lift
  | .carrying => some .toPort
  | .holding => some .toPort
  | .handing => some .handOff
  | .takingOn => some .takeOn
  | .returning => some (.travel (s.homePosition r.bin))
  | .lowering => some .lower
  | .probing => some .probe
  | .queued => none
  | .waitingLane => none
  | .crossing => none

/-- The current order of a shuttle is halted, unless it is HALTED already; the restart record is filled (R57). -/
def State.haltCurrent (a : Aisle) (reason : HaltReason) (s : State) : State :=
  match s.currentOrder? a with
  | none => s
  | some (o, r) =>
    match r.stage with
    | .run st =>
      match s.stageCommand? r st with
      | some m =>
        s.putOrder o { r with stage := .halted { stageAt := st, command := m, completionSeen := decide (st = .holding), reason } }
      | none => s
    | _ => s

/-- The fields of a capture about a shuttle (R83): its current order, that order's bin or else the carried bin, and the stage
at halt. -/
def State.shuttleCapture (s : State) (kind : FaultKind) (a : Aisle) (code : Option Byte) : Capture :=
  match s.currentOrder? a with
  | some (o, r) =>
    { kind, shuttle := some a, order := some o, bin := some r.bin, stage := r.stageReached, code }
  | none =>
    { kind, shuttle := some a, order := none, bin := (s.shuttle a).carried, stage := none, code }

/-! ## Stage progress (R51 to R56, R86, R87) -/

/-- The label outcome of a STATUS answer (R75). -/
inductive Label where
  | bin (b : BinNo)
  | none
  | unreadable
  deriving DecidableEq, Repr

/-- A capture of a label check at a LIFT or a PROBE (R83). -/
def labelCapture (kind : FaultKind) (a : Aisle) (o : OrderNo) (b : BinNo) (st : RunStage) : Capture :=
  { kind, shuttle := some a, order := some o, bin := some b, stage := some st, code := none }

/-- A bin whose label another bin's LIFT read becomes UNVERIFIED if it is enrolled at HOME (R86). -/
def State.unsettle (x : BinNo) (s : State) : State :=
  s.changeBin x fun r => if r.place = .home then { r with place := .unverified } else r

/-- A bin comes on board: the carried bin and the place change together (R71). -/
def State.board (a : Aisle) (b : BinNo) (s : State) : State :=
  (s.changeShuttle a fun r => { r with carried := some b }).setPlace b (.onShuttle a)

/-- A bin leaves a shuttle for a place (R71). -/
def State.unboard (a : Aisle) (b : BinNo) (p : Place) (s : State) : State :=
  (s.changeShuttle a fun r => { r with carried := none }).setPlace b p

/-- The label check at a LIFT completion and the step that follows (R51, R56, R86). -/
def State.liftDone (a : Aisle) (o : OrderNo) (r : Order) (label : Label) (s : State) : State :=
  match label with
  | .none => (s.setPlace r.bin .missing).finishIdle a o .absent
  | .unreadable =>
    let s := (s.setPlace r.bin .unverified).capture (labelCapture .labelUnreadable a o r.bin .lifting)
    s.enterStage a o { r with pendingOutcome := some .unreadable } .lowering .lower
  | .bin x =>
    if x = r.bin then
      let s := s.board a r.bin
      if r.cancel then s.enterStage a o r .lowering .lower else s.enterStage a o r .carrying .toPort
    else
      let s := ((s.setPlace r.bin .missing).unsettle x).capture (labelCapture .labelMismatch a o r.bin .lifting)
      s.enterStage a o { r with pendingOutcome := some .mismatch } .lowering .lower

/-- The result of a PROBE (R54, R87). -/
def State.probeDone (a : Aisle) (o : OrderNo) (r : Order) (label : Label) (s : State) : State :=
  match label with
  | .none => (s.setPlace r.bin .missing).finishIdle a o .absent
  | .unreadable =>
    ((s.setPlace r.bin .unverified).capture (labelCapture .labelUnreadable a o r.bin .probing)).finishIdle a o .unreadable
  | .bin x =>
    if x = r.bin then (s.setPlace r.bin .home).finishIdle a o .found
    else
      ((s.setPlace r.bin .missing).capture (labelCapture .labelMismatch a o r.bin .probing)).finishIdle a o .mismatch

/-- The end of a LOWER: after a failed label check the unknown bin is back in its slot and no bin changes; otherwise the bin
is HOME (R51, R53, R54, R56, R71). -/
def State.lowerDone (a : Aisle) (o : OrderNo) (r : Order) (s : State) : State :=
  match r.pendingOutcome with
  | some .mismatch => s.finishIdle a o .mismatch
  | some .unreadable => s.finishIdle a o .unreadable
  | none => (s.unboard a r.bin .home).finishIdle a o .ok

/-- Whether a shuttle at the port may be given its HAND_OFF (R51). -/
def State.mayHandOff (s : State) (a : Aisle) : Bool := (s.outPlace a).isNone && s.hallNormal

/-- The end of a TO_PORT: back home under the cancel mark (R56), else hand the bin off or hold it (R51). -/
def State.toPortDone (a : Aisle) (o : OrderNo) (r : Order) (s : State) : State :=
  if r.cancel then s.enterStage a o r .returning (.travel (s.homePosition r.bin))
  else if s.mayHandOff a then s.enterStage a o r .handing .handOff
  else s.putOrder o { r with stage := .run .holding }

/-- The end of a HAND_OFF: the bin is in the port OUT place, the shuttle is IDLE without the order (R51). -/
def State.handOffDone (a : Aisle) (o : OrderNo) (r : Order) (s : State) : State :=
  let s := ((s.unboard a r.bin (.portOut a)).setOutPlace a (some r.bin)).goIdle a
  s.putOrder o { r with stage := .run .waitingLane }

/-- The end of a TAKE_ON (R53). -/
def State.takeOnDone (a : Aisle) (o : OrderNo) (r : Order) (s : State) : State :=
  ((s.board a r.bin).setInPlace a none).enterStage a o r .returning (.travel (s.homePosition r.bin))

/-- The end of a TRAVEL in SEEKING: under the cancel mark the order finishes (R56); else LIFT or PROBE (R51, R54). -/
def State.seekDone (a : Aisle) (o : OrderNo) (r : Order) (s : State) : State :=
  if r.cancel then s.finishIdle a o .cancelled
  else if r.kind = .probe then s.enterStage a o r .probing .probe
  else s.enterStage a o r .lifting .lift

/-- What the Order Unit does when the command of an order's stage has completed (R51 to R56). -/
def State.stageDone (a : Aisle) (o : OrderNo) (r : Order) (st : RunStage) (label : Label) (s : State) : State :=
  match st with
  | .seeking => s.seekDone a o r
  | .lifting => s.liftDone a o r label
  | .carrying => s.toPortDone a o r
  | .holding => s.toPortDone a o r
  | .handing => s.handOffDone a o r
  | .takingOn => s.takeOnDone a o r
  | .returning => s.enterStage a o r .lowering .lower
  | .lowering => s.lowerDone a o r
  | .probing => s.probeDone a o r label
  | .queued => s
  | .waitingLane => s
  | .crossing => s

/-- The end of a PARK: PARKED after a fire PARK, or in quiet running; IDLE when the quiet state is ACTIVE again (R84). -/
def State.parkDone (a : Aisle) (fire : Bool) (s : State) : State :=
  if fire || decide (s.ou.quiet ≠ .active) then s.changeShuttle a fun r => { r with state := .parked }
  else s.goIdle a

/-- The completion of the command in flight (R81): it is cleared, the deadline stops, and the order moves on. -/
def State.completeCommand (a : Aisle) (c : InFlight) (label : Label) (s : State) : State :=
  let s := s.clearCommand a
  match c.motion with
  | .park => s.parkDone a c.fire
  | _ =>
    match s.currentOrder? a with
    | none => s
    | some (o, r) =>
      match r.stage with
      | .run st => s.stageDone a o r st label
      | _ => s

/-! ## Work held back for the port or for zone 3 -/

/-- A FETCH in HOLDING is given its HAND_OFF once the OUT place is empty and zone 3 is NORMAL (R51, R91). -/
def State.resumeHolding (a : Aisle) (s : State) : State :=
  match s.currentOrder? a with
  | none => s
  | some (o, r) => if r.stage = .run .holding ∧ s.mayHandOff a then s.enterStage a o r .handing .handOff else s

/-- A held TAKE_ON is placed again when zone 3 and the aisle's zone are NORMAL (R85). -/
def State.resumeTakeOn (a : Aisle) (s : State) : State :=
  match s.currentOrder? a with
  | none => s
  | some (_, r) =>
    if r.stage = .run .takingOn ∧ (s.shuttle a).state = .busy ∧ (s.shuttle a).command = none ∧ s.slot a = none
        ∧ s.hallNormal ∧ s.aisleNormal a then
      s.giveCommand a .takeOn false
    else s

/-! ## RESTORE orders (R88, R41) -/

/-- What became of the RESTORE a revival calls for. -/
inductive RestoreMade where
  | none
  | made (o : OrderNo)
  | waits
  deriving DecidableEq, Repr

/-- Makes the RESTORE for a bin found on a shuttle, or files its claim (R88). -/
def State.makeRestore (a : Aisle) (b : BinNo) (s : State) : RestoreMade × State :=
  match s.freeEntry? with
  | some o => (.made o, s.placeOrder o (plainOrder .restore .recovery b a 3 .queued none))
  | none => (.waits, s.fileClaim (.restore a b))

end Sys2Proof.Machine
end

