-- ==== Sys2Proof/Machine/Lane.lean ====
section
/-! DEFINITION. The Lane Controller: requesters, grants, and the ends of crossings (Chapter 5 B, C). -/

namespace Sys2Proof.Machine

/-- The destination of a FETCH (R92). -/
def Order.crossDest? (r : Order) : Option CrossDest := r.dest.map .station

/-- The bin in a requester's place. -/
def State.requesterBin? (s : State) : Requester → Option BinNo
  | .port a => s.outPlace a
  | .station n => s.stationOut n

/-- A present requester: its bin, the order that holds it, and the crossing's destination (R92). -/
def State.request? (s : State) (q : Requester) : Option (BinNo × OrderNo × CrossDest) :=
  match s.requesterBin? q with
  | none => none
  | some b =>
    match s.binRec? b with
    | none => none
    | some rec =>
      match rec.holder with
      | none => none
      | some o =>
        match s.order? o with
        | none => none
        | some r =>
          if r.stage = .run .waitingLane then
            match q with
            | .port _ => if r.kind = .fetch then r.crossDest?.map fun d => (b, o, d) else none
            | .station _ => if r.kind = .stow then some (b, o, .portIn (s.homeAisle b)) else none
          else none

/-- Whether a crossing's destination can take the bin (R92). -/
def State.destinationTakes (s : State) : CrossDest → Bool
  | .station _ => true
  | .portIn a => (s.inPlace a).isNone

/-- The requesters in cyclic order, from the one after the pointer to the pointer's own (R93). -/
def State.rotation (s : State) : List Requester :=
  requesters.drop (s.lc.pointer.val + 1) ++ requesters.take (s.lc.pointer.val + 1)

/-- The first eligible requester in a list, given that zone 3 is NORMAL and the lane is free (R92, R93). -/
def State.firstEligible? (s : State) : List Requester → Option (Requester × BinNo × OrderNo × CrossDest)
  | [] => none
  | q :: rest =>
    match s.request? q with
    | some (b, o, d) => if s.destinationTakes d then some (q, b, o, d) else s.firstEligible? rest
    | none => s.firstEligible? rest

/-- The lane lines are driven with a crossing's codes and LGO is pulsed (R94, R97). -/
def State.driveLane (q : Requester) (d : CrossDest) (s : State) : State :=
  { s with lc.lsrc := BitVec.ofNat 4 q.code, lc.ldst := BitVec.ofNat 4 d.code, lc.lgoPulses := s.lc.lgoPulses + 1 }

/-- The lane lines return to the idle code (R94, R95, R96). -/
def State.idleLane (s : State) : State := { s with lc.lsrc := 0, lc.ldst := 0 }

/-- The place a crossing is granted from is emptied (R94). -/
def State.emptySource (q : Requester) (s : State) : State :=
  match q with
  | .port a => s.setOutPlace a none
  | .station n => s.setStationOut n none

/-- The stage of an order becomes another one in the running order. -/
def State.setStage (o : OrderNo) (st : RunStage) (s : State) : State :=
  match s.order? o with
  | none => s
  | some r => s.putOrder o { r with stage := .run st }

/-- A grant (R94). -/
def State.grantCrossing (q : Requester) (b : BinNo) (o : OrderNo) (d : CrossDest) (s : State) : State :=
  let c : Crossing := { source := q, dest := d, bin := b, order := o, state := .running Config.crossingDeadline }
  let s := { s with lc.crossing := some c, lc.pointer := q.index }
  let s := s.emptySource q
  let s := (s.setPlace b .crossing).setStage o .crossing
  s.driveLane q d

/-- The LC looks for a crossing to grant (R93). -/
def State.lookForCrossing (s : State) : State :=
  if s.hallNormal && s.lc.crossing.isNone then
    match s.firstEligible? s.rotation with
    | some (q, b, o, d) => s.grantCrossing q b o d
    | none => s
  else s

/-- The crossing record is cleared and the lane lines return to idle (R95, R96). -/
def State.clearCrossing (s : State) : State := { s with lc.crossing := none }.idleLane

/-- A bin joins the tail of a pick station's queue; if it becomes the presented bin, STATION_READY is latched (R100). -/
def State.arriveAtPick (n : PickNo) (b : BinNo) (s : State) : State :=
  let q := s.presentationQueue n
  let s := s.setPresentationQueue n (q ++ [b])
  if q = [] then s.latch .stationReady else s

/-- A crossing is delivered (R95, R52, R53). -/
def State.deliver (c : Crossing) (s : State) : State :=
  let s := s.clearCrossing
  match c.dest with
  | .station d =>
    let s := (s.setPlace c.bin (.atStation d)).finishOrder c.order .ok
    match d with
    | .pick n => s.arriveAtPick n c.bin
    | .ret _ => s
  | .portIn a =>
    let s := (s.setInPlace a (some c.bin)).setPlace c.bin (.portIn a)
    (s.setStage c.order .queued).joinQueue a c.order

/-- A crossing has failed (R96). -/
def State.failCrossing (c : Crossing) (kind : FaultKind) (s : State) : State :=
  let s := s.clearCrossing
  let s := (s.setPlace c.bin .unverified).finishOrder c.order .fault
  s.capture { kind, shuttle := none, order := some c.order, bin := some c.bin, stage := some .crossing, code := none }

/-- The stop claim: LSTOP is asserted and a crossing in progress is STOPPED (R97). -/
def State.stopLane (s : State) : State :=
  let s := { s with lc.lstop := true }
  match s.lc.crossing with
  | some c => { s with lc.crossing := some { c with state := .stopped } }
  | none => s

/-- The re-run claim: LSTOP is released and a kept STOPPED crossing is driven again; a STRANDED bin returns to CROSSING
(R97, R155). -/
def State.rerunLane (s : State) : State :=
  let s := { s with lc.lstop := false }
  match s.lc.crossing with
  | some c =>
    if c.state = .stopped then
      let s := { s with lc.crossing := some { c with state := .running Config.crossingDeadline } }
      let s := s.driveLane c.source c.dest
      s.changeBin c.bin fun r => if r.place = .stranded then { r with place := .crossing } else r
    else s
  | none => s

end Sys2Proof.Machine
end

