-- ==== Sys2Proof/Machine/Stations.lean ====
section
/-! DEFINITION. The pools (Chapter 1 C), the wake by the return station (R67), and the return station's positions: calling a
bin and sending a bin home (Chapter 7 A). -/

namespace Sys2Proof.Machine

/-! ## The pools (R16, R17) -/

/-- The kind and count condition of a position's pool (R16, R17). -/
def BinRec.fitsPool (r : BinRec) : Position → Bool
  | .intake => decide (r.kind = .intake) && decide (r.itemCount = 0)
  | .hold => decide (r.kind = .hold) && decide (r.itemCount < r.capacity)

/-- Whether an enrolled bin is a member of a position's pool (R16, R17). -/
def State.inPool (s : State) (p : Position) (b : BinNo) (r : BinRec) : Bool :=
  r.fitsPool p && decide (r.place = .home) && r.holder.isNone && s.homeNormal b

/-- The first member of a pool, by bin number (R16 to R18). -/
def State.poolFirst? (s : State) (p : Position) : Option BinNo :=
  s.tab.bins.findSome? fun e =>
    match bin? e.1 with
    | some b => if s.inPool p b e.2 then some b else none
    | none => none

/-! ## Waking (R67) -/

/-- The move to ACTIVE: each PARKED shuttle of a NORMAL zone becomes IDLE without an exchange (R67). -/
def State.becomeActive (s : State) : State :=
  aisles.foldl
    (fun s a => if (s.shuttle a).state = .parked ∧ s.aisleNormal a then s.goIdle a else s)
    { s with ou.quiet := .active }

/-- An event of the return station or the drop list wakes the wing out of QUIET, with WOKEN latched (R67). -/
def State.wakeByNeed (s : State) : State :=
  if s.ou.quiet = .quiet then s.becomeActive.latch .woken else s

/-! ## Positions (R129, R131) -/

/-- The state of station 4. -/
def State.returnState (s : State) : StationState := s.stationState returnStation

def State.returnOpen (s : State) : Bool := decide (s.returnState = .opened)

/-- The dismissal of a position's bin into the out place, with its entry known (R131). -/
def State.dismissInto (o : OrderNo) (p : Position) (b : BinNo) (s : State) : State :=
  let s := s.placeOrder o (plainOrder .stow .returnStation b (s.homeAisle b) 2 .waitingLane none)
  let s := (s.setStationOut returnStation (some b)).setPlace b (.stationOut returnStation)
  (s.setPosition p .empty).withdrawClaims [(Claim.dismissal p).rank]

/-- Whether a dismissal may be made but for an entry: station 4 is not FIRE_HELD and its out place is empty (R131). -/
def State.mayDismiss (s : State) : Bool := !s.returnState.isFireHeld && (s.stationOut returnStation).isNone

/-- The SU tries the dismissal of a FULL_WAITING position; with no entry free the claim joins the claim list (R131). It is tried in the
settling of the placement's own step, so that the next request finds the position as the dismissal left it, EMPTY or ARRIVING, where
the closing sentence of R140 has it FULL_WAITING still (log entry 32). -/
def State.tryDismissal (p : Position) (s : State) : State :=
  match s.position p with
  | .fullWaiting b =>
    if s.mayDismiss then
      match s.freeEntry? with
      | some o => s.wakeByNeed.dismissInto o p b
      | none => if s.dismissalMark p then s else s.fileClaim (.dismissal p)
    else s
  | _ => s

/-- The return-station FETCH of a pool member, with its entry known (R47, R129). -/
def State.callBin (o : OrderNo) (p : Position) (b : BinNo) (s : State) : State :=
  let s := s.placeOrder o (plainOrder .fetch .returnStation b (s.homeAisle b) 2 .queued (some (.ret p)))
  (s.setPosition p (.arriving o)).withdrawClaims [(Claim.fetch p).rank]

/-- The position enters WANTING, and INTAKE_EXHAUSTED is latched (R129). -/
def State.enterWanting (p : Position) (s : State) : State :=
  ((s.setPosition p .wanting).withdrawClaims [(Claim.fetch p).rank]).latch .intakeExhausted

/-- The OU takes a position's fetch claim (R129). -/
def State.takeFetchClaim (p : Position) (s : State) : State :=
  let s := s.wakeByNeed
  match s.freeEntry? with
  | some o =>
    match s.poolFirst? p with
    | some b => s.callBin o p b
    | none => s.enterWanting p
  | none => (s.setPosition p .empty).fileClaim (.fetch p)

/-- The SU sends a fetch claim for an EMPTY position of the open station whose mark is clear, and for a WANTING one once its
pool has a member (R129). -/
def State.tryFetch (p : Position) (s : State) : State :=
  if s.returnOpen then
    match s.position p with
    | .empty => if s.fetchMark p then s else s.takeFetchClaim p
    | .wanting => if (s.poolFirst? p).isSome then s.takeFetchClaim p else s
    | _ => s
  else s

/-- The SU goes over the two positions: dismissals, then fetches, INTAKE before HOLD each time (R131, R133; log entry 10). -/
def State.tendPositions (s : State) : State :=
  (((s.tryDismissal .intake).tryDismissal .hold).tryFetch .intake).tryFetch .hold

/-- A WANTING position becomes EMPTY (R128, R133). -/
def State.stopWanting (p : Position) (s : State) : State :=
  if s.position p = .wanting then s.setPosition p .empty else s

/-- Station 4 becomes CLOSED: waiting fetch claims are withdrawn and WANTING positions become EMPTY (R133). -/
def State.closeReturn (s : State) : State :=
  ((s.withdrawClaims [(Claim.fetch .intake).rank, (Claim.fetch .hold).rank]).stopWanting .intake).stopWanting .hold

/-- Station 4 becomes FIRE_HELD: dismissal claims are withdrawn as well (R133). -/
def State.holdReturn (s : State) : State :=
  s.closeReturn.withdrawClaims [(Claim.dismissal .intake).rank, (Claim.dismissal .hold).rank]

/-- An item is placed in the bin of its route position: SHELVED in an intake bin, HELD in a hold bin; the count rises, the
changed flag is set, and a bin at its capacity makes the position FULL_WAITING (R135, R137). -/
def State.placeReturned (p : Position) (b : BinNo) (t : Tag) (holds : List PatronNo) (s : State) : State :=
  let st : ItemState := match p with
    | .intake => .shelved b
    | .hold => .held b
  let s := (s.putItem t { state := st, holds := holds }).countIn b
  match s.binRec? b with
  | some r => if r.itemCount < r.capacity then s else s.setPosition p (.fullWaiting b)
  | none => s

/-- Whether a bin has reached its capacity. -/
def State.binFull (s : State) (b : BinNo) : Bool :=
  match s.binRec? b with
  | some r => decide (r.capacity ≤ r.itemCount)
  | none => false

/-- The item count of a bin. -/
def State.itemCountOf (s : State) (b : BinNo) : Nat :=
  match s.binRec? b with
  | some r => r.itemCount
  | none => 0

/-- The picked-out count of a bin. -/
def State.pickedOutOf (s : State) (b : BinNo) : Nat :=
  match s.binRec? b with
  | some r => r.pickedOut
  | none => 0

end Sys2Proof.Machine
end

