-- ==== Sys2Proof/Machine/Fire.lean ====
section
/-! DEFINITION. The Fire Interlock Unit: entering ALARM, sealing, the deadline, release and recovery (Chapter 8, with the
withdrawals of R85). -/

namespace Sys2Proof.Machine

/-! ## Withdrawals (R85) -/

/-- The request that waits on a withdrawn STATUS is refused: REVIVE SHUTTLE with ZONE_LOCKED, RESUME ORDER with WRONG_STATE
(R85, R58, R89). -/
def State.refuseWaiter (m : Message) (s : State) : State :=
  match m with
  | .hostRevival => s.endRequest .zoneLocked {}
  | .resume => s.endRequest .wrongState {}
  | _ => s

/-- The message waiting for a shuttle is withdrawn, and the request that waited on it refused (R85). -/
def State.withdrawForAlarm (a : Aisle) (s : State) : State :=
  match s.slot a with
  | some m => (s.setSlot a none).refuseWaiter m
  | none => s

/-- The result of a STATUS for a revival, a RESUME ORDER or an offline poll in progress is used for the silence count and the
position only (R58, R89, R144; log entry 16). -/
def State.limitForAlarm (a : Aisle) (s : State) : State :=
  match s.alc.exchange with
  | some { shuttle := _, kind := .command _, use := _, sent := _ } => s
  | some { shuttle := _, kind := .busyPoll, use := _, sent := _ } => s
  | _ => s.limitExchange a .silenceAndPosition

/-- The HAND_OFF or TAKE_ON of a shuttle is withdrawn while zone 3 is not NORMAL: its FETCH returns to HOLDING, its STOW stays
in TAKING_ON (R85, R145). -/
def State.withdrawPortCommand (a : Aisle) (s : State) : State :=
  let s := (s.setSlot a none).clearCommand a
  match s.currentOrder? a with
  | some (o, r) => if r.stage = .run .handing then s.putOrder o { r with stage := .run .holding } else s
  | none => s

/-- The HAND_OFF or TAKE_ON waiting for a shuttle is withdrawn (R85, R145). -/
def State.withdrawWaitingPort (a : Aisle) (s : State) : State :=
  match s.slot a with
  | some (.command .handOff _) => s.withdrawPortCommand a
  | some (.command .takeOn _) => s.withdrawPortCommand a
  | _ => s

/-! ## Fire PARKs (R84, R144) -/

/-- The fire PARK replaces whatever the shuttle has in flight, and the shuttle is BUSY (R84, R144). -/
def State.placeFirePark (a : Aisle) (s : State) : State :=
  (s.changeShuttle a fun r => { r with state := .busy }).giveCommand a .park true

/-- A quiet PARK in flight is taken as the fire PARK: no new message is placed and its deadline is stopped (R84). -/
def State.takeQuietPark (a : Aisle) (c : InFlight) (s : State) : State :=
  let s := s.changeShuttle a fun r => { r with command := some { c with fire := true }, deadline := none }
  match s.slot a with
  | some (.command .park _) => s.setSlot a (some (.command .park true))
  | _ => s

/-- An IDLE or BUSY shuttle of a zone that enters ALARM is given its fire PARK (R84, R144). A motion command whose exchange is
in progress is left until the exchange ends. -/
def State.parkForFire (a : Aisle) (s : State) : State :=
  match (s.shuttle a).command with
  | some c =>
    if c.motion = .park then s.takeQuietPark a c
    else if s.commandExchange a then s
    else (s.withdrawForAlarm a).placeFirePark a
  | none => (s.withdrawForAlarm a).placeFirePark a

/-- What the alarm of an aisle zone does to one shuttle of it (R144, R156). -/
def State.alarmShuttle (a : Aisle) (s : State) : State :=
  let s := s.haltCurrent a .fire
  let s := s.changeShuttle a fun r => { r with revivalRetry := none }
  let s := s.limitForAlarm a
  match (s.shuttle a).state with
  | .idle => s.parkForFire a
  | .busy => s.parkForFire a
  | _ => s.withdrawForAlarm a

/-- The claims of an aisle zone that enters ALARM (R144, R156). -/
def State.alarmAisles (z : ZoneNo) (s : State) : State :=
  (shuttlesOf z).foldl (fun s a => s.alarmShuttle a) (s.withdrawClaims ((shuttlesOf z).map (·.val)))

/-! ## The front hall in ALARM (R145) -/

/-- A station that is held remembers its state; one already held keeps what it remembers (R145, R156). -/
def StationState.held : StationState → StationState
  | .closed => .fireHeld false
  | .opened => .fireHeld true
  | .fireHeld r => .fireHeld r

/-- A held station takes its remembered state (R155). -/
def StationState.unheld : StationState → StationState
  | .fireHeld true => .opened
  | .fireHeld false => .closed
  | st => st

/-- The hold claim: every station becomes FIRE_HELD, and the return station follows R133 (R145). -/
def State.holdStations (s : State) : State :=
  State.holdReturn { s with su.states := mapRow StationState.held s.su.states }

/-- The claims of zone 3 when it enters ALARM (R145). -/
def State.alarmHall (s : State) : State :=
  aisles.foldl (fun s a => s.withdrawWaitingPort a) s.stopLane.holdStations

/-- A zone enters ALARM (R143); its sealing condition is examined by the settling of the step. -/
def State.enterAlarm (z : ZoneNo) (s : State) : State :=
  let s := (s.setZoneState z (.alarm s.tab.deadlines[z])).latch .zoneAlarm
  if z = frontHall then s.alarmHall else s.alarmAisles z

/-! ## Sealing (R146 to R149) -/

/-- Whether a shuttle is PARKED, CAUGHT, OFFLINE or FAULTED (R146). -/
def ShuttleState.atRest : ShuttleState → Bool
  | .parked => true
  | .caught => true
  | .offline => true
  | .faulted => true
  | _ => false

/-- Whether every shuttle of a zone is at rest (R146). -/
def State.shuttlesAtRest (s : State) (z : ZoneNo) : Bool :=
  (shuttlesOf z).all fun a => (s.shuttle a).state.atRest

/-- Whether a motion command reaches into a port. -/
def Motion.atPort : Motion → Bool
  | .handOff => true
  | .takeOn => true
  | _ => false

/-- Whether a shuttle has a HAND_OFF or TAKE_ON in flight that is ACCEPTED, UNCONFIRMED, or SENT with its exchange in progress
(R147). -/
def State.reachesPort (s : State) (a : Aisle) : Bool :=
  match (s.shuttle a).command with
  | some c => c.motion.atPort && (decide (c.mark ≠ .sent) || s.commandExchange a)
  | none => false

/-- The sealing condition of a zone (R146, R147). -/
def State.sealable (s : State) (z : ZoneNo) : Bool :=
  if z = frontHall then aisles.all fun a => !s.reachesPort a else s.shuttlesAtRest z

/-- Every message for a shuttle is withdrawn, its command in flight cleared, its deadline stopped, and the answer of an
exchange in progress with it is to be discarded (R85). -/
def State.silenceShuttle (a : Aisle) (s : State) : State :=
  (((s.withdrawForAlarm a).clearCommand a).changeShuttle a fun r => { r with revivalRetry := none }).limitExchange a .discard

/-- The sealing of one shuttle's aisle: nothing more is sent, and its current order finishes FIRE (R85, R148). -/
def State.sealShuttle (a : Aisle) (s : State) : State :=
  let s := s.silenceShuttle a
  match s.currentOrder? a with
  | some (o, _) => s.finishOrder o .fire
  | none => s

/-- The strand claim: the bin of a STOPPED crossing becomes STRANDED (R149). -/
def State.strand (s : State) : State :=
  match s.lc.crossing with
  | some c => if c.state = .stopped then s.setPlace c.bin .stranded else s
  | none => s

/-- A zone enters SEALED (R148, R149). -/
def State.sealZone (z : ZoneNo) (s : State) : State :=
  let s := (s.setZoneState z .sealed).latch .zoneSealed
  if z = frontHall then s.strand else (shuttlesOf z).foldl (fun s a => s.sealShuttle a) s

/-- A zone in ALARM whose sealing condition holds enters SEALED (R146, R147). -/
def State.trySeal (z : ZoneNo) (s : State) : State :=
  if s.zoneAlarm z && s.sealable z then s.sealZone z else s

/-- A shuttle that is IDLE or BUSY when its zone's deadline expires becomes CAUGHT, and the fault is captured (R146). -/
def State.catchShuttle (a : Aisle) (s : State) : State :=
  if (s.shuttle a).state.atRest then s
  else (s.capture (s.shuttleCapture .caught a none)).changeShuttle a fun r => { r with state := .caught }

/-- The deadline of a zone in ALARM has expired (R146, R147). -/
def State.expireZone (z : ZoneNo) (s : State) : State :=
  ((shuttlesOf z).foldl (fun s a => s.catchShuttle a) s).sealZone z

/-! ## Release and recovery (R151 to R155) -/

/-- A shuttle of a zone that enters RECOVERY: CAUGHT is taken as PARKED, and a PARKED shuttle gets a revival STATUS (R152). -/
def State.recoverShuttle (a : Aisle) (s : State) : State :=
  match (s.shuttle a).state with
  | .caught => (s.changeShuttle a fun r => { r with state := .parked }).setSlot a (some .revival)
  | .parked => s.setSlot a (some .revival)
  | _ => s

/-- A release takes a zone to RECOVERY (R151, R152, R155). -/
def State.releaseZone (z : ZoneNo) (s : State) : State :=
  let s := s.setZoneState z .recovery
  if z = frontHall then s.rerunLane else (shuttlesOf z).foldl (fun s a => s.recoverShuttle a) s

/-- Whether a revival STATUS of a shuttle waits to be placed again, waits in its slot, or is in an exchange (R154). -/
def State.revivalOut (s : State) (a : Aisle) : Bool :=
  (s.shuttle a).revivalRetry.isSome || decide (s.slot a = some .revival)
    || match s.alc.exchange with
      | some { shuttle := b, kind := .revival, use := _, sent := _ } => b == a
      | _ => false

/-- Whether an unfinished RESTORE of source RECOVERY stands for an aisle (R154). -/
def State.restoreOut (s : State) (a : Aisle) : Bool :=
  orderNumbers.any fun o =>
    match s.order? o with
    | some r => decide (r.kind = .restore) && decide (r.source = .recovery) && decide (r.aisle = a) && !r.isFinished
    | none => false

/-- Whether nothing of an aisle keeps its zone in RECOVERY (R154). -/
def State.aisleRecovered (s : State) (a : Aisle) : Bool :=
  decide ((s.shuttle a).state ≠ .parked) && decide ((s.shuttle a).state ≠ .caught) && !s.revivalOut a && !s.restoreOut a
    && !s.claims a.val

/-- The condition under which a zone in RECOVERY becomes NORMAL (R154, R155). -/
def State.recovered (s : State) (z : ZoneNo) : Bool :=
  if z = frontHall then s.lc.crossing.isNone else (shuttlesOf z).all s.aisleRecovered

/-- Every held station takes its remembered state (R155). -/
def State.releaseStations (s : State) : State := { s with su.states := mapRow StationState.unheld s.su.states }

/-- A zone in RECOVERY whose condition holds becomes NORMAL, and ZONE_RECOVERED is latched (R154, R155). -/
def State.tryRecover (z : ZoneNo) (s : State) : State :=
  if decide (s.zoneState z = .recovery) && s.recovered z then
    let s := (s.setZoneState z .normal).latch .zoneRecovered
    if z = frontHall then s.releaseStations else s
  else s

end Sys2Proof.Machine
end

