-- ==== Sys2Proof/Machine/Settle.lean ====
section
/-! DEFINITION. The settling of a step: what the blocks do, in the same step, once an event has changed the state. Each rule's
"when one of these events is taken" is met by looking at the state after every event (log entry 10). -/

namespace Sys2Proof.Machine

/-- The work of one aisle: a held HAND_OFF, a held TAKE_ON, and an order to dispatch (R50, R51, R85). -/
def State.workAisle (a : Aisle) (s : State) : State := ((s.resumeHolding a).resumeTakeOn a).dispatch a

/-- The work of every aisle. -/
def State.workAisles (s : State) : State := aisles.foldl (fun s a => s.workAisle a) s

/-- The shuttles left without work are parked in quiet running (R65). -/
def State.parkIdle (s : State) : State := aisles.foldl (fun s a => s.quietPark a) s

/-- The three conditions of R66. -/
def State.atQuiet (s : State) : Bool :=
  orderNumbers.all (fun o => !s.unfinished o) && aisles.all (fun a => (s.shuttle a).state.atRest) && s.lc.crossing.isNone

/-- The quiet state moves from QUIESCING to QUIET (R66). -/
def State.tryQuiet (s : State) : State :=
  if s.ou.quiet = .quiescing ∧ s.atQuiet = true then { s with ou.quiet := .quiet }.latch .quietEntered else s

/-- The sweep ends when the cursor stands at 2048 and no audit probe is unfinished (R63). -/
def State.tryAuditEnd (s : State) : State :=
  if s.ou.sweep = true ∧ s.ou.cursor = some 2048 ∧ s.ou.auditCount = 0 then
    { s with ou.sweep := false, ou.cursor := none }.latch .auditDone
  else s

/-- The zones that can seal do so, then the zones that have recovered become NORMAL, in zone order. -/
def State.settleZones (s : State) : State :=
  zones.foldl (fun s z => s.tryRecover z) (zones.foldl (fun s z => s.trySeal z) s)

/-- The return station, the aisles and the lane take up what the event has made possible. -/
def State.settleWork (s : State) : State :=
  s.tendPositions.workAisles.lookForCrossing.tendPositions.workAisles

/-- The settling of a step: zones, then work, then the shuttles left idle, then the ends of QUIESCING and of the sweep. -/
def State.settle (s : State) : State := s.settleZones.settleWork.parkIdle.tryQuiet.tryAuditEnd

end Sys2Proof.Machine
end

