-- ==== Sys2Proof/Machine/Link.lean ====
section
/-! DEFINITION. The Aisle Link Controller: messages and answers, the silence count, faults, the reading of each exchange's
result, the arbiter and the motion deadline (Chapter 4, R152, R153, R184, R185). -/

namespace Sys2Proof.Machine

/-! ## Messages (R74, R184) -/

/-- The check byte that brings a sum to 0 modulo 256 (R74). -/
def checkByte (bytes : List Nat) : Nat := (256 - bytes.sum % 256) % 256

/-- A data character as the 612 sends it. -/
def dataChar (n : Nat) : LinkChar := { data := byte n, mark := false, stopMarking := true }

/-- A message to a shuttle: the address character, the code, the length, the arguments and the check byte (R74). -/
def messageChars (a : Aisle) (code : Nat) (args : List Nat) : List LinkChar :=
  let body := code :: args.length :: args
  { data := byte (a.val + 1), mark := true, stopMarking := true } :: (body ++ [checkByte body]).map dataChar

/-- The eleven bits of a character as they stand on the line, true for marking: the start bit, the data bits with the least
significant first, the mark bit, the stop bit (R73; log entry 9). -/
def characterBits (c : LinkChar) : List Bool :=
  false :: ([0, 1, 2, 3, 4, 5, 6, 7].map c.data.getLsbD ++ [c.mark, c.stopMarking])

/-- What LDIR and LTX carry while a message is sent: LDIR is driven through the stop bit of the last character, and then released
with the line at rest (R73, R76). -/
def transmission (chars : List LinkChar) : List LineBit :=
  chars.flatMap (fun c => (characterBits c).map fun b => { ldir := true, ltx := b }) ++ [restingLine]

/-- The level of LDIR now, true while the 612 drives it (R73). -/
def State.ldir (s : State) : Bool := (s.alc.line.getLast?.getD restingLine).ldir

/-- The level of LTX now, true for marking (R73). -/
def State.ltx (s : State) : Bool := (s.alc.line.getLast?.getD restingLine).ltx

/-- The message of an exchange: a motion command, or a STATUS. -/
def ExchangeKind.chars (a : Aisle) : ExchangeKind → List LinkChar
  | .command m => messageChars a m.code m.arguments
  | _ => messageChars a statusCommand []

/-! ## Answers (R75, R184, R185) -/

/-- The motion state of a STATUS answer (R75). -/
inductive MotionState where
  | idle | moving | done | fault
  deriving DecidableEq, Repr

/-- A STATUS answer as it is read (R75, R185): `last` is the command code of the last command, absent for none; `position` is
absent for a value above 0201. -/
structure StatusAnswer where
  motion : MotionState
  last : Option Nat
  label : Label
  position : Option RackPos
  code : Byte
  deriving DecidableEq, Repr

/-- A valid answer (R75). -/
inductive LinkAnswer where
  | ack
  | refused (reason : Byte)
  | status (a : StatusAnswer)
  deriving DecidableEq, Repr

/-- The reading of a motion state: above 03 it is FAULT (R185). -/
def readMotion : Nat → MotionState
  | 0 => .idle | 1 => .moving | 2 => .done | _ => .fault

/-- The reading of a last command: a value that is no motion command code is none (R185). -/
def readLast (n : Nat) : Option Nat := if 1 ≤ n ∧ n ≤ 8 then some n else none

/-- The reading of a label: 0000–07FF a bin, 0800 none, anything above unreadable (R184, R185). -/
def readLabel (n : Nat) : Label :=
  match bin? n with
  | some b => .bin b
  | none => if n = 0x800 then .none else .unreadable

/-- The reading of a position: absent above 0201 (R184, R185). -/
def readPosition (n : Nat) : Option RackPos :=
  if n < 512 then some (.rack n) else if n = 0x200 then some .port else if n = 0x201 then some .park else none

/-- The data bytes of received characters, absent if one has its stop bit spacing or its mark bit 1 (R73). -/
def dataBytes? : List LinkChar → Option (List Nat)
  | [] => some []
  | c :: rest =>
    if c.mark || !c.stopMarking then none
    else
      match dataBytes? rest with
      | some bs => some (c.data.toNat :: bs)
      | none => none

/-- Whether the sum of an answer's code, fields and check is 0 modulo 256 (R75). -/
def sumsToZero (bytes : List Nat) : Bool := bytes.sum % 256 == 0

/-- An answer by its code and its number of field bytes, with its check correct (R75, R184). -/
def readBytes? (bytes : List Nat) : Option LinkAnswer :=
  if sumsToZero bytes then
    match bytes with
    | [0x80, _] => some .ack
    | [0x81, r, _] => some (.refused (byte r))
    | [0x90, m, l, lh, ll, ph, pl, f, _] =>
      some (.status
        { motion := readMotion m, last := readLast l, label := readLabel (lh * 256 + ll)
          position := readPosition (ph * 256 + pl), code := byte f })
    | _ => none
  else none

/-- ACK and REFUSED fit a motion command, STATUS fits STATUS (R75). -/
def ExchangeKind.fits : ExchangeKind → LinkAnswer → Bool
  | .command _, .ack => true
  | .command _, .refused _ => true
  | .command _, .status _ => false
  | _, .status _ => true
  | _, _ => false

/-- The valid answer that received characters make in an exchange, absent where they make none (R75). -/
def readAnswer? (k : ExchangeKind) (chars : List LinkChar) : Option LinkAnswer :=
  match dataBytes? chars with
  | none => none
  | some bytes =>
    match readBytes? bytes with
    | some a => if k.fits a then some a else none
    | none => none

/-- Whether an answer is DONE at the place its last command was to reach (R80). -/
def StatusAnswer.atTarget (st : StatusAnswer) : Motion → Bool
  | .travel t => decide (st.position = some (.rack t))
  | .park => decide (st.position = some .park)
  | _ => true

/-- A STATUS answer shows a command (R80). -/
def StatusAnswer.shows (st : StatusAnswer) (m : Motion) : Bool :=
  decide (st.last = some m.code) && (decide (st.motion ≠ .done) || st.atTarget m)

/-! ## Silence and faults (R77, R83) -/

/-- The answer of a REVIVE SHUTTLE or RESUME ORDER that ends SHUTTLE_FAULTED: for REVIVE SHUTTLE the shuttle's state and last
fault code (R89, R182). -/
def State.faultedAnswer (s : State) (a : Aisle) : Answer :=
  { a0 := word (s.shuttle a).state.code, a1 := word (s.shuttle a).faultCode.toNat }

/-- The request that waited on a STATUS which R77 or R83 withdraws ends SHUTTLE_FAULTED (log entry 15). -/
def State.failWaiter (a : Aisle) (m : Message) (s : State) : State :=
  match m with
  | .hostRevival => s.endRequest .shuttleFaulted (s.faultedAnswer a)
  | .resume => s.endRequest .shuttleFaulted {}
  | _ => s

/-- The message waiting for a shuttle that has stopped is withdrawn (R77, R83). -/
def State.withdrawStopped (a : Aisle) (s : State) : State :=
  match s.slot a with
  | some m => (s.setSlot a none).failWaiter a m
  | none => s

/-- A shuttle that was not OFFLINE has drawn no answer three times (R77). -/
def State.goOffline (a : Aisle) (s : State) : State :=
  let s := s.changeShuttle a fun r => { r with state := .offline, command := none, deadline := none }
  let s := (s.withdrawStopped a).haltCurrent a .silent
  s.capture (s.shuttleCapture .linkSilent a none)

/-- An exchange has ended with no answer (R77). The count rises by 1 up to 3 for an OFFLINE shuttle too, one that has answered and so
stands below 3 (log entry 39). -/
def State.silent (a : Aisle) (s : State) : State :=
  let was := s.shuttle a
  let n := min 3 (was.silence + 1)
  let s := s.changeShuttle a fun r => { r with silence := n }
  if n = 3 ∧ was.state ≠ .offline ∧ was.state ≠ .caught then s.goOffline a else s

/-- An exchange has ended with a valid answer: the silence count is 0, and a STATUS fills the position (R76, R77). -/
def State.heard (a : Aisle) (ans : LinkAnswer) (s : State) : State :=
  match ans with
  | .status st =>
    s.changeShuttle a fun r =>
      { r with
        silence := 0
        position := match st.position with
          | some p => p
          | none => r.position }
  | _ => s.changeShuttle a fun r => { r with silence := 0 }

/-- A shuttle has faulted (R83). -/
def State.faultShuttle (a : Aisle) (code : Byte) (s : State) : State :=
  let s := s.changeShuttle a fun r => { r with state := .faulted, faultCode := code, command := none, deadline := none }
  let s := (s.withdrawStopped a).haltCurrent a .fault
  s.capture (s.shuttleCapture .shuttleFault a (some code))

/-! ## Motion commands and polls of BUSY shuttles (R80 to R82) -/

/-- The mark of the command in flight changes. -/
def State.markCommand (a : Aisle) (m : CommandMark) (s : State) : State :=
  s.changeShuttle a fun r => { r with command := r.command.map fun c => { c with mark := m } }

/-- A command becomes ACCEPTED and its motion deadline starts, except for a fire PARK (R80, R84). -/
def State.acceptCommand (a : Aisle) (s : State) : State :=
  (s.markCommand a .accepted).changeShuttle a fun r =>
    { r with
      deadline := match r.command with
        | some c => if c.fire then none else some Config.motionDeadline
        | none => none }

/-- The result of a motion command's exchange (R80). -/
def State.commandResult (a : Aisle) (ans : Option LinkAnswer) (s : State) : State :=
  match ans with
  | none => (s.markCommand a .unconfirmed).silent a
  | some (.refused reason) => (s.heard a (.refused reason)).faultShuttle a reason
  | some other => (s.heard a other).acceptCommand a

/-- After a motion command's exchange, a shuttle of a zone in ALARM that is still BUSY is given its fire PARK (R85, R144). -/
def State.parkAfterExchange (a : Aisle) (s : State) : State :=
  if s.zoneAlarm (zoneOf a) && decide ((s.shuttle a).state = .busy) then
    match (s.shuttle a).command with
    | some c => if c.fire then s else s.placeFirePark a
    | none => s.placeFirePark a
  else s

/-- A command that a poll shows was not taken is sent again; a HAND_OFF or TAKE_ON is withdrawn while zone 3 is not NORMAL
(R80, R85). -/
def State.sendAgain (a : Aisle) (c : InFlight) (s : State) : State :=
  if c.motion.atPort && !s.hallNormal then s.withdrawPortCommand a
  else (s.markCommand a .sent).setSlot a (some (.command c.motion c.fire))

/-- A poll answer for an UNCONFIRMED command (R80). -/
def State.pollUnconfirmed (a : Aisle) (c : InFlight) (st : StatusAnswer) (s : State) : State :=
  match st.motion with
  | .fault => s.faultShuttle a st.code
  | .moving => if st.shows c.motion then s.acceptCommand a else s.sendAgain a c
  | .done => if st.shows c.motion then s.completeCommand a c st.label else s.sendAgain a c
  | .idle => s.sendAgain a c

/-- A poll answer for an ACCEPTED command (R81). -/
def State.pollAccepted (a : Aisle) (c : InFlight) (st : StatusAnswer) (s : State) : State :=
  match st.motion with
  | .fault => s.faultShuttle a st.code
  | .moving => if st.shows c.motion then s else s.faultShuttle a 0
  | .done => if st.shows c.motion then s.completeCommand a c st.label else s.faultShuttle a 0
  | .idle => s.faultShuttle a 0

/-- A poll answer for a shuttle with no command in flight, or one not yet sent: only FAULT matters (R81; log entry 18). -/
def State.pollWaiting (a : Aisle) (st : StatusAnswer) (s : State) : State :=
  match st.motion with
  | .fault => s.faultShuttle a st.code
  | _ => s

/-- The result of a poll of a BUSY shuttle (R79 to R81). -/
def State.pollResult (a : Aisle) (ans : Option LinkAnswer) (s : State) : State :=
  match ans with
  | some (.status st) =>
    let s := s.heard a (.status st)
    match (s.shuttle a).command with
    | some c =>
      match c.mark with
      | .sent => s.pollWaiting a st
      | .unconfirmed => s.pollUnconfirmed a c st
      | .accepted => s.pollAccepted a c st
    | none => s.pollWaiting a st
  | _ => s.silent a

/-- The expiry of the motion deadline of an accepted command (R82). -/
def State.overrun (a : Aisle) (s : State) : State :=
  let s := s.changeShuttle a fun r => { r with state := .faulted, command := none, deadline := none }
  let s := (s.limitExchange a .silenceAndPosition).haltCurrent a .fault
  s.capture (s.shuttleCapture .motionOverdue a none)

/-! ## Revivals (R88, R153) -/

/-- A bin has been lost from a shuttle: it becomes UNVERIFIED and the carried bin absent (R71, R88). -/
def State.loseCarried (a : Aisle) (s : State) : State :=
  match (s.shuttle a).carried with
  | some c => (s.changeShuttle a fun r => { r with carried := none }).setPlace c .unverified
  | none => s

/-- The same for a carried bin other than `keep` (R88, R153). -/
def State.loseOther (a : Aisle) (keep : BinNo) (s : State) : State :=
  if (s.shuttle a).carried = some keep then s.changeShuttle a fun r => { r with carried := none } else s.loseCarried a

/-- Whether an order is a RESTORE of an aisle for a bin (R88). -/
def State.isRestoreFor (s : State) (o : OrderNo) (a : Aisle) (b : BinNo) : Bool :=
  match s.order? o with
  | some r => decide (r.kind = .restore) && decide (r.aisle = a) && decide (r.bin = b)
  | none => false

/-- Whether a place is one from which a shuttle may be found holding the bin (R153). -/
def Place.onBoardFrom (a : Aisle) : Place → Bool
  | .home => true
  | .unverified => true
  | .missing => true
  | .onShuttle b => b == a
  | _ => false

/-- The capture of a revival whose label is not accepted (R153). -/
def rejectCapture (a : Aisle) (b : BinNo) (o : Option OrderNo) : Capture :=
  { kind := .labelMismatch, shuttle := some a, order := o, bin := some b, stage := none, code := none }

/-- A shuttle holds a bin it cannot take home: it is FAULTED with no carried bin, and the fault is captured (R153). -/
def State.rejectLabel (a : Aisle) (b : BinNo) (o : Option OrderNo) (s : State) : State :=
  (s.changeShuttle a fun r => { r with state := .faulted, carried := none }).capture (rejectCapture a b o)

/-- The bin a revival reports is accepted: the shuttle is IDLE with it, and a RESTORE is made or kept (R88, R153). -/
def State.acceptLabel (a : Aisle) (b : BinNo) (kept : Bool) (s : State) : RestoreMade × State :=
  let s := ((s.loseOther a b).goIdle a).board a b
  if kept then (.none, s) else s.makeRestore a b

/-- A bin of another aisle that nobody holds and that stood at HOME becomes UNVERIFIED (R153). -/
def State.unsettleFree (b : BinNo) (s : State) : State :=
  s.changeBin b fun r => if r.place = .home ∧ r.holder = none then { r with place := .unverified } else r

/-- A revival reports a bin on board (R88, R153). The rows of R153's table are taken from the top, so that a label that meets two
of them takes the first, and the capture names the holding order in the last row alone (log entry 30). -/
def State.reviveWithBin (a : Aisle) (b : BinNo) (s : State) : RestoreMade × State :=
  match s.binRec? b with
  | none => (.none, (s.loseCarried a).rejectLabel a b none)
  | some r =>
    if s.homeAisle b ≠ a then (.none, ((s.loseCarried a).unsettleFree b).rejectLabel a b none)
    else if !r.place.onBoardFrom a then (.none, (s.loseOther a b).rejectLabel a b none)
    else
      match r.holder with
      | none => s.acceptLabel a b false
      | some o =>
        if s.isRestoreFor o a b then s.acceptLabel a b true
        else (.none, (s.loseOther a b).rejectLabel a b (some o))

/-- A revival reads an unreadable label (R88). -/
def State.reviveUnreadable (a : Aisle) (s : State) : State :=
  let s := (s.loseCarried a).changeShuttle a fun r => { r with state := .faulted }
  s.capture { kind := .labelUnreadable, shuttle := some a, order := none, bin := none, stage := none, code := none }

/-- The motion of a shuttle at rest is read: what it holds decides (R88). -/
def State.reviveAtRest (a : Aisle) (st : StatusAnswer) (s : State) : RestoreMade × State :=
  if st.last = some Motion.probe.code then (.none, (s.loseCarried a).goIdle a)
  else
    match st.label with
    | .none => (.none, (s.loseCarried a).goIdle a)
    | .unreadable => (.none, s.reviveUnreadable a)
    | .bin b => s.reviveWithBin a b

/-- A revival shows FAULT (R88). -/
def State.reviveFaulted (a : Aisle) (code : Byte) (s : State) : State :=
  let s := s.changeShuttle a fun r => { r with state := .faulted, faultCode := code }
  s.capture (s.shuttleCapture .shuttleFault a (some code))

/-- A revival draws no answer: the shuttle is OFFLINE with silence count 3 (R88). -/
def State.reviveUnanswered (a : Aisle) (s : State) : State :=
  s.changeShuttle a fun r => { r with state := .offline, silence := 3 }

/-- A revival answer, of a recovery revival, an offline poll or a REVIVE SHUTTLE (R88). -/
def State.revive (a : Aisle) (ans : Option LinkAnswer) (s : State) : RestoreMade × State :=
  match ans with
  | some (.status st) =>
    let s := s.heard a (.status st)
    match st.motion with
    | .moving => (.none, s)
    | .fault => (.none, s.reviveFaulted a st.code)
    | _ => s.reviveAtRest a st
  | _ => (.none, s.reviveUnanswered a)

/-- Whether a revival found the shuttle MOVING. -/
def stillMoving : Option LinkAnswer → Bool
  | some (.status st) => decide (st.motion = .moving)
  | _ => false

/-- The result of a recovery revival: one that finds the shuttle MOVING is placed again after 2 s (R152). -/
def State.revivalResult (a : Aisle) (ans : Option LinkAnswer) (s : State) : State :=
  let s := (s.revive a ans).2
  if stillMoving ans then s.changeShuttle a fun r => { r with revivalRetry := some Config.pollInterval } else s

/-- The first answer cell of REVIVE SHUTTLE (R182). -/
def RestoreMade.word : RestoreMade → Word
  | .none => noneWord
  | .made o => Sys2Proof.word o.val
  | .waits => 0xFFFE

/-- The end of a REVIVE SHUTTLE whose exchange has run (R89). -/
def State.hostRevivalResult (a : Aisle) (ans : Option LinkAnswer) (s : State) : State :=
  let r := s.revive a ans
  if (r.2.shuttle a).state = .idle then
    r.2.endRequest .ok { a0 := r.1.word, a1 := word ShuttleState.idle.code }
  else r.2.endRequest .shuttleFaulted (r.2.faultedAnswer a)

/-! ## RESUME ORDER (R59) -/

/-- The courses of R59 in the order of their codes (R182). -/
inductive Course where
  | nextStep | countedDone | repeated | stillRunning
  deriving DecidableEq, Repr

def Course.code : Course → Nat
  | .nextStep => 0 | .countedDone => 1 | .repeated => 2 | .stillRunning => 3

/-- The course the restart record and the answer decide (R59). -/
def Restart.course (h : Restart) (st : StatusAnswer) : Course :=
  if h.completionSeen then .nextStep
  else if st.shows h.command then
    match st.motion with
    | .done => .countedDone
    | .moving => .stillRunning
    | _ => .repeated
  else .repeated

/-- The order goes on by its course (R59). -/
def State.followCourse (a : Aisle) (o : OrderNo) (r : Order) (h : Restart) (c : Course) (label : Label) (s : State) : State :=
  let r := { r with stage := .run h.stageAt }
  let s := (s.putOrder o r).changeShuttle a fun t => { t with state := .busy, order := some o }
  match c with
  | .nextStep => s.stageDone a o r h.stageAt label
  | .countedDone => s.stageDone a o r h.stageAt label
  | .repeated => s.giveCommand a h.command false
  | .stillRunning =>
    s.changeShuttle a fun t =>
      { t with command := some ⟨h.command, .accepted, false⟩, deadline := some Config.motionDeadline }

/-- The stage code of an order, for the answer of RESUME ORDER. -/
def State.stageCodeOf (s : State) (o : OrderNo) : Nat :=
  match s.order? o with
  | some r => r.stage.code
  | none => noneByte

/-- The STATUS answer of a RESUME ORDER shows the fault cleared (R58 check 5, R59). -/
def State.resumeWith (a : Aisle) (o : OrderNo) (st : StatusAnswer) (s : State) : State :=
  match s.order? o with
  | none => s.endRequest .wrongState {}
  | some r =>
    match r.stage with
    | .halted h =>
      let c := h.course st
      if c = .repeated ∧ h.command.atPort = true ∧ s.hallNormal = false then s.endRequest .zoneLocked {}
      else
        let t := s.followCourse a o r h c st.label
        t.endRequest .ok { a0 := word (t.stageCodeOf o), a1 := word c.code }
    | _ => s.endRequest .wrongState {}

/-- The order a waiting RESUME ORDER names. -/
def State.resumed? (s : State) : Option OrderNo :=
  match s.win.waiting with
  | some { kind := .resumeOrder o, operands := _ } => some o
  | _ => none

/-- The end of the STATUS exchange of a RESUME ORDER (R59). -/
def State.resumeResult (a : Aisle) (ans : Option LinkAnswer) (s : State) : State :=
  match ans with
  | some (.status st) =>
    let s := s.heard a (.status st)
    if st.motion = .fault then s.endRequest .shuttleFaulted {}
    else
      match s.resumed? with
      | some o => s.resumeWith a o st
      | none => s
  | _ => (s.silent a).endRequest .shuttleFaulted {}

/-! ## The end of an exchange (R76) -/

/-- The request that waited on an exchange whose result an alarm or a sealing has limited is refused (R58, R85, R89). -/
def State.refuseRequest (k : ExchangeKind) (s : State) : State :=
  match k with
  | .hostRevival => s.endRequest .zoneLocked {}
  | .resume => s.endRequest .wrongState {}
  | _ => s

/-- The silence count and the position take a result, and nothing else does (R58, R82, R144). The third silence has the effects of R77
here too, for a PARKED shuttle whose revival a new alarm has limited as well (log entry 40). -/
def State.countOnly (a : Aisle) (ans : Option LinkAnswer) (s : State) : State :=
  match ans with
  | some r => s.heard a r
  | none => s.silent a

/-- The result of an exchange applied in full, by what the exchange was for. -/
def State.applyResult (a : Aisle) (k : ExchangeKind) (ans : Option LinkAnswer) (s : State) : State :=
  match k with
  | .command _ => (s.commandResult a ans).parkAfterExchange a
  | .busyPoll => s.pollResult a ans
  | .offlinePoll => (s.revive a ans).2
  | .revival => s.revivalResult a ans
  | .hostRevival => s.hostRevivalResult a ans
  | .resume => s.resumeResult a ans

/-- The exchange in progress ends, with an answer or with none (R76). -/
def State.endExchange (x : Exchange) (ans : Option LinkAnswer) (s : State) : State :=
  let s := { s with alc.exchange := none }
  match x.use with
  | .full => s.applyResult x.shuttle x.kind ans
  | .silenceAndPosition => (s.countOnly x.shuttle ans).refuseRequest x.kind
  | .discard => s.refuseRequest x.kind

/-! ## The arbiter (R78, R79) -/

/-- The classes of R78. -/
inductive GrantClass where
  | one | two | three | four
  deriving DecidableEq, Repr

/-- The addresses of a rotation, from the one after the last granted (R78). -/
def rotationAfter (last : Aisle) : List Aisle := aisles.drop (last.val + 1) ++ aisles.take (last.val + 1)

/-- A shuttle whose zone is SEALED, or that is CAUGHT, has nothing to send (R78). -/
def State.maySend (s : State) (a : Aisle) : Bool :=
  decide (s.zoneState (zoneOf a) ≠ .sealed) && decide ((s.shuttle a).state ≠ .caught)

/-- Whether the current order of a shuttle is HALTED. -/
def State.haltedOrder (s : State) (a : Aisle) : Bool :=
  match s.currentOrder? a with
  | some (_, r) => r.isHalted
  | none => false

/-- An offline poll is due (R79). -/
def State.offlinePollDue (s : State) (a : Aisle) : Bool :=
  decide ((s.shuttle a).state = .offline) && (s.shuttle a).pollWait.isNone && !s.zoneAlarm (zoneOf a)
    && !s.haltedOrder a && (s.slot a).isNone

/-- Whether a shuttle has something to send in a class (R78). -/
def State.sends (s : State) (c : GrantClass) (a : Aisle) : Bool :=
  s.maySend a
    && match c, s.slot a with
      | .one, some (.command _ true) => true
      | .two, some (.command _ false) => true
      | .three, some .revival => true
      | .three, some .hostRevival => true
      | .three, some .resume => true
      | .three, none => decide ((s.shuttle a).state = .busy)
      | .four, none => s.offlinePollDue a
      | _, _ => false

/-- The addresses of a class in the order in which they are served (R78). -/
def State.classOrder (s : State) : GrantClass → List Aisle
  | .one => aisles
  | .two => rotationAfter s.alc.last2
  | .three => rotationAfter s.alc.last3
  | .four => rotationAfter s.alc.last4

/-- The shuttle a class would be granted to. -/
def State.classNext? (s : State) (c : GrantClass) : Option Aisle := (s.classOrder c).find? (s.sends c)

/-- What the arbiter grants next (R78). -/
def State.nextGrant? (s : State) : List GrantClass → Option (GrantClass × Aisle)
  | [] => none
  | c :: rest =>
    match s.classNext? c with
    | some a => some (c, a)
    | none => s.nextGrant? rest

def grantClasses : List GrantClass := [.one, .two, .three, .four]

/-- What the exchange granted to a shuttle is for. -/
def State.grantKind (s : State) (c : GrantClass) (a : Aisle) : ExchangeKind :=
  match c, s.slot a with
  | .four, _ => .offlinePoll
  | _, some (.command m _) => .command m
  | _, some .revival => .revival
  | _, some .hostRevival => .hostRevival
  | _, some .resume => .resume
  | _, none => .busyPoll

/-- The rotation of a class moves to the shuttle granted; an offline poll starts its 2 s (R78, R79). -/
def State.rotate (c : GrantClass) (a : Aisle) (s : State) : State :=
  match c with
  | .one => s
  | .two => { s with alc.last2 := a }
  | .three => { s with alc.last3 := a }
  | .four => { s with alc.last4 := a }.changeShuttle a fun r => { r with pollWait := some Config.pollInterval }

/-- An exchange begins: its message leaves the slot and is sent, the line at rest again at its end (R73, R76, R78). -/
def State.beginExchange (c : GrantClass) (a : Aisle) (s : State) : State :=
  let k := s.grantKind c a
  let s := (s.rotate c a).setSlot a none
  { s with alc.exchange := some { shuttle := a, kind := k, use := .full, sent := k.chars a }
           alc.line := transmission (k.chars a) }

/-- Whether the turn of a REVIVE SHUTTLE finds its shuttle neither FAULTED nor OFFLINE (R89). -/
def State.staleRevival (s : State) (a : Aisle) : Bool :=
  decide (s.slot a = some .hostRevival) && decide ((s.shuttle a).state ≠ .faulted)
    && decide ((s.shuttle a).state ≠ .offline)

/-- Such a revival is withdrawn, and its request answers OK with the shuttle's state and no RESTORE (R89). -/
def State.dropStaleRevival (a : Aisle) (s : State) : State :=
  (s.setSlot a none).endRequest .ok { a0 := noneWord, a1 := word (s.shuttle a).state.code }

/-- The arbiter grants the link to the first class that has something to send (R78). -/
def State.grantNext (s : State) : State :=
  match s.nextGrant? grantClasses with
  | some (c, a) => s.beginExchange c a
  | none => s

/-- The link is free and the arbiter grants it (R78); a stale revival whose turn it is is withdrawn and gives up its turn
(R89). -/
def State.grantLink (s : State) : State :=
  match s.nextGrant? grantClasses with
  | some (c, a) => if s.staleRevival a then (s.dropStaleRevival a).settle.grantNext else s.beginExchange c a
  | none => s

/-- The revival STATUS of a recovery is placed again (R152). -/
def State.placeRevivalAgain (a : Aisle) (s : State) : State :=
  let s := s.changeShuttle a fun r => { r with revivalRetry := none }
  if (s.shuttle a).state = .parked ∧ s.slot a = none then s.setSlot a (some .revival) else s

end Sys2Proof.Machine
end

