-- ==== Sys2Proof/Machine/Operands.lean ====
section
/-! DEFINITION. The operands of a request: parameter fields, the CONTEXT station, bin operands and checks (R4, R163, R166,
R167, R178, R180, R181). -/

namespace Sys2Proof.Machine

/-! ## Parameter fields -/

/-- A parameter cell as a number. -/
def Operands.cell (o : Operands) (i : Fin 6) : Nat := o.p[i].toNat

/-- A tag or patron number in two cells; bits above its width make it too large for its range check (R178, R180). -/
def Operands.twoCell (o : Operands) (i j : Fin 6) : Nat := o.cell i * 65536 + o.cell j

/-- The high byte of a parameter cell (R178). -/
def Operands.highByte (o : Operands) (i : Fin 6) : Nat := o.cell i / 256

/-- The low byte of a parameter cell (R178). -/
def Operands.lowByte (o : Operands) (i : Fin 6) : Nat := o.cell i % 256

/-- The latched CONTEXT as a number (R166). -/
def Operands.station (o : Operands) : Nat := o.context.toNat

/-- The tag of a request that carries one in P0–P1. -/
def Operands.tag (o : Operands) : Tag := o.twoCell 0 1

/-- The patron number of a request that carries one in P0–P1. -/
def Operands.patron (o : Operands) : PatronNo := o.twoCell 0 1

/-- The patron number of a request that carries one in P2–P3. -/
def Operands.secondPatron (o : Operands) : PatronNo := o.twoCell 2 3

/-- Whether a tag is 1–16,777,215 (R23). -/
def validTag (t : Tag) : Bool := decide (1 ≤ t) && decide (t ≤ Config.maxTag)

/-- Whether a patron number is 1–1,048,575 (R29). -/
def validPatron (n : PatronNo) : Bool := decide (1 ≤ n) && decide (n ≤ Config.maxPatron)

/-- A flag operand: 0 or 1 (R179). -/
def flag? : Nat → Option Bool
  | 0 => some false | 1 => some true | _ => none

/-- The pick station CONTEXT names, absent where it names none. -/
def Operands.pick? (o : Operands) : Option PickNo := index? 4 o.station

/-- The station CONTEXT names, absent above 4. -/
def Operands.station? (o : Operands) : Option StationNo := index? 5 o.station

/-! ## Checks -/

/-- The code of the first check that fails (F. Conventions, R163). -/
def firstFailing : List (Bool × Code) → Option Code
  | [] => none
  | (true, _) :: rest => firstFailing rest
  | (false, c) :: _ => some c

/-! ## Bin operands (R167, R181, R4) -/

/-- The form field of a bin operand (R181). -/
def Operands.form (o : Operands) : Nat := o.cell 0 / 8192

/-- Whether a bin operand is of the STATION form (R181). -/
def Operands.stationForm (o : Operands) : Bool := o.form == 3

/-- The BIN form: P0 bits 11–0 (R181). -/
def Operands.binField (o : Operands) : Nat := o.cell 0 % 4096

/-- The ITEM form's tag: P0 bits 7–0 and P1 (R181). -/
def Operands.itemField (o : Operands) : Tag := o.lowByte 0 * 65536 + o.cell 1

/-- The ITEM form (R167). -/
def State.binOfItem (s : State) (t : Tag) : Except Code Nat :=
  if validTag t then
    match s.item? t with
    | none => .error .noRecord
    | some { state := .shelved b, holds := _ } => .ok b.val
    | some { state := .held b, holds := _ } => .ok b.val
    | some _ => .error .wrongState
  else .error .badOperand

/-- The offset an index names in a segment (R167). -/
def Segment.indexedOffset (d : Segment) (i : Nat) : Nat :=
  match d.direction with
  | .up => i
  | .down => 64 - d.length + i

/-- The SEGMENT+INDEX form (R167). -/
def State.binOfIndex (s : State) (g i : Nat) : Except Code Nat :=
  match index? 32 g with
  | none => .error .badOperand
  | some g =>
    if i ≤ 63 then
      let d := s.segment g
      if d.valid && decide (i < d.length) then .ok (g.val * 64 + d.indexedOffset i) else .error .length
    else .error .badOperand

/-- The STATION form: the presented bin of the CONTEXT station (R167). -/
def State.binOfStation (s : State) (o : Operands) : Except Code Nat :=
  match o.pick? with
  | none => .error .notPresented
  | some n =>
    match s.presented? n with
    | some b => .ok b.val
    | none => .error .notPresented

/-- A bin operand resolved by its form (R167). -/
def State.resolveBin (s : State) (o : Operands) : Except Code Nat :=
  match o.form with
  | 0 => .ok o.binField
  | 1 => s.binOfItem o.itemField
  | 2 => s.binOfIndex (o.lowByte 0) (o.lowByte 1)
  | 3 => s.binOfStation o
  | _ => .error .badOperand

/-- The checks of R4 on a bin number, but for its record. -/
def State.checkNumber (s : State) (n : Nat) : Except Code BinNo :=
  match bin? n with
  | none => .error .badOperand
  | some b =>
    if (s.segmentOf b).valid && (s.segmentOf b).holdsOffset (offsetOf b) then .ok b else .error .length

/-- A bin operand resolved and checked against the segment table: the operand of ENROL BIN (R4, R12). The STATION form asks
for a CONTEXT of 0–4 first (R166). -/
def State.binOperand (s : State) (o : Operands) : Except Code BinNo :=
  if o.stationForm && decide (4 < o.station) then .error .badOperand
  else
    match s.resolveBin o with
    | .error c => .error c
    | .ok n => s.checkNumber n

/-- A bin operand of every other request: the bin must have a record (R4). -/
def State.enrolledOperand (s : State) (o : Operands) : Except Code (BinNo × BinRec) :=
  match s.binOperand o with
  | .error c => .error c
  | .ok b =>
    match s.binRec? b with
    | none => .error .noRecord
    | some r => .ok (b, r)

/-! ## Station checks (R109) -/

/-- Whether a station is FIRE_HELD. -/
def State.heldStation (s : State) (n : StationNo) : Bool := (s.stationState n).isFireHeld

end Sys2Proof.Machine
end

