-- ==== Sys2Proof/Machine/Window.lean ====
section
/-! DEFINITION. The Request Window: taking a request, its end, collisions, the cells as they read and the release sequence
(Chapter 9, R150, R178). -/

namespace Sys2Proof.Machine

/-- The outcome of a command: the block always answers a next state. -/
abbrev Result := Host.Outcome State Fault Refusal

/-! ## Taking a request (R163 to R165) -/

/-- How the evaluation of a request comes out: refused with a code, answered with the state its changes leave, or waiting for a
STATUS exchange (R165). -/
inductive Reply where
  | refuse (c : Code)
  | answer (c : Code) (a : Answer) (s : State)
  | wait (k : WaitKind) (s : State)
  deriving DecidableEq, Repr

/-- The evaluation of a request, from its latched operands. -/
abbrev Evaluation := Operands → State → Reply

/-- A write other than one to RELEASE makes the release progress none (R150, R162). -/
def State.breakRelease (s : State) : State := { s with win.release := .none }

/-- A write that is ignored sets COLLIDED (R164, R169); it makes the release progress none (R150). -/
def State.collide (s : State) : State := { s with win.collided := true, win.release := .none }

/-- Whether a REQUEST or RELEASE write is taken: BUSY is clear and start-up has ended (R163, R164, R169). -/
def State.windowFree (s : State) : Bool := !s.win.busy && decide (s.phase = .running)

/-- The operands latched with a request (R163). -/
def State.operands (s : State) : Operands := { p := s.win.p, context := s.win.context }

/-- The request code is stored and BUSY set, the last completion code left as it was (R163). -/
def State.storeRequest (code : Word) (s : State) : State :=
  { s with win.request := code, win.busy := true, win.release := .none }

/-- The evaluation of a request ends, or waits (R165). -/
def Reply.finish (o : Operands) (s : State) : Reply → State
  | .refuse c => s.endRequest c {}
  | .answer c a t => t.endRequest c a
  | .wait k t => { t with win.waiting := some { kind := k, operands := o } }

/-- A write of a request code to REQUEST (R163, R164): it is taken while BUSY is clear and start-up has ended,
and collides otherwise. -/
def State.takeRequest (code : Word) (e : Evaluation) (s : State) : State :=
  if s.windowFree then
    let t := s.storeRequest code
    (e s.operands t).finish s.operands t
  else s.collide

/-- A request that changes nothing outside the window: refused by its checks, or answered from the state (R165). -/
def readRequest (refusal : Option Code) (a : Answer) (s : State) : Reply :=
  match refusal with
  | some c => .refuse c
  | none => .answer .ok a s

/-- A request that acts at the CONTEXT station: a latched value above 4 is refused at the second check of R163 (R166). -/
def atContext (e : StationNo → Evaluation) : Evaluation := fun o s =>
  match o.station? with
  | none => .refuse .badOperand
  | some n => e n o s

/-! ## Events outside the window -/

/-- Nothing happens outside the window until start-up has ended (R73, R169, R170; log entry 19). -/
def State.whenRunning (f : State → State) (s : State) : State :=
  match s.phase with
  | .running => f s
  | .starting => s

/-! ## The cells as the host reads them (R161, R169, R178) -/

/-- STATE: bit 15 BUSY, bit 14 COLLIDED, bits 7–0 the last completion code. -/
def Window.stateCell (w : Window) : Word :=
  word (flagCode w.busy * 32768 + flagCode w.collided * 16384 + w.code.value)

/-- RELEASE: bits 1–0 the progress, bits 5–4 the zone (R178); with no sequence in progress the zone field reads 0 (log entry 34). -/
def Release.cell : Release → Word
  | .none => 0
  | .first z => word (1 + 16 * z.val)
  | .second z => word (2 + 16 * z.val)

/-- View cell 17: bits 1–0 the station state, bits 3–2 the remembered state in FIRE_HELD. -/
def StationState.viewCell (st : StationState) : Word :=
  match st.remembered with
  | some r => word (st.code + 4 * r)
  | none => word st.code

/-- The bin of a place in a cell, or the mark for none. -/
def binCell (b : Option BinNo) : Word := wordOrNone (b.map (·.val))

/-- The seven view cells of a station, by cell number (R106). -/
def State.viewCell (s : State) (n : StationNo) (cell : Nat) : Word :=
  match cell with
  | 17 => (s.stationState n).viewCell
  | 18 =>
    match asPick? n with
    | some k => binCell (s.presented? k)
    | none => noneWord
  | 19 =>
    match asPick? n with
    | some k => word (s.presentationQueue k).length
    | none => 0
  | 20 =>
    match asPick? n with
    | some k => word (s.reserved k)
    | none => 0
  | 21 => binCell (s.stationOut n)
  | 22 => if n = returnStation then binCell s.su.intake.bin? else noneWord
  | 23 => if n = returnStation then binCell s.su.hold.bin? else noneWord
  | _ => 0

/-- What a read of a cell returns (R161, R162): 0 for a view cell while CONTEXT is above 4 (R166), for the view cells, CAUSE and
RELEASE during start-up (R169), and for a select that names no cell. -/
def State.readCell (s : State) (cell : BitVec 5) : Word :=
  match cell.toNat with
  | 0 => s.win.request
  | 1 => s.win.stateCell
  | 2 => s.win.context
  | 3 => s.win.p[0]
  | 4 => s.win.p[1]
  | 5 => s.win.p[2]
  | 6 => s.win.p[3]
  | 7 => s.win.p[4]
  | 8 => s.win.p[5]
  | 9 => s.win.a.a0
  | 10 => s.win.a.a1
  | 11 => s.win.a.a2
  | 12 => s.win.a.a3
  | 13 => word s.causeNumber
  | 14 => s.win.enable.setWidth 16
  | 15 => s.win.levels.setWidth 16
  | 16 => s.win.release.cell
  | n =>
    if s.phase = .starting then 0
    else
      match index? 5 s.win.context.toNat with
      | some st => s.viewCell st n
      | none => 0

/-! ## Writes to the cells (R150, R162, R169, R172, R174) -/

/-- A write to P0–P5 (R161). It is stored from RESET_ASSERTED on as it is during start-up (log entry 36). -/
def State.writeParameter (i : Fin 6) (v : Word) (s : State) : State :=
  { s with win.p := s.win.p.set i v, win.release := .none }

/-- A write to CONTEXT (R166), stored from RESET_ASSERTED on in the same way (log entry 36). -/
def State.writeContext (v : Word) (s : State) : State := { s with win.context := v, win.release := .none }

/-- A write to CAUSE: the latches of the event causes whose bits are set are cleared; during start-up it is ignored and sets
COLLIDED (R174, R169). -/
def State.writeCause (v : Word) (s : State) : State :=
  match s.phase with
  | .starting => s.collide
  | .running => { s with au.latches := s.au.latches &&& ~~~(v.setWidth 11 &&& eventMask) }.breakRelease

/-- A write to ENABLE (R172, R169). -/
def State.writeEnable (v : Word) (s : State) : State :=
  match s.phase with
  | .starting => s.collide
  | .running => { s with win.enable := v.setWidth 11 }.breakRelease

/-- A write to LEVELS (R172, R169). -/
def State.writeLevels (v : Word) (s : State) : State :=
  match s.phase with
  | .starting => s.collide
  | .running => { s with win.levels := v.setWidth 6 }.breakRelease

/-- The result of a RELEASE write: the new progress, its completion code, and the release it makes (R150). The code is written over
STARTING as over any other, where R169 has STARTING stay until the first request completes (log entry 33). -/
def State.judgeRelease (v : Word) (s : State) : State :=
  match s.win.release with
  | .none =>
    match index? 4 v.toNat with
    | some z => { s with win.release := .first z, win.code := .ok }
    | none => { s with win.release := .none, win.code := .sequenceRefused }
  | .first z =>
    if v.toNat = 0xFFFF - z.val then { s with win.release := .second z, win.code := .ok }
    else { s with win.release := .none, win.code := .sequenceRefused }
  | .second z =>
    if v.toNat = z.val ∧ s.zoneState z = .sealed ∧ (s.zone z).line = false then
      { s with win.release := .none, win.code := .zoneReleased }.releaseZone z |>.settle
    else { s with win.release := .none, win.code := .sequenceRefused }

/-- A write to RELEASE: it collides while BUSY is set and during start-up (R150, R164, R169). -/
def State.writeRelease (v : Word) (s : State) : State := if s.windowFree then s.judgeRelease v else s.collide

/-- A read of STATE: the cell goes to D0–D15, and COLLIDED is then cleared (R162, R164). -/
def State.readState (s : State) : State := { s with dataOut := s.win.stateCell, win.collided := false }

end Sys2Proof.Machine
end

