-- ==== Sys2Proof/Machine/Clock.lean ====
section
/-! DEFINITION. One second of the part's own clock: the countdowns of R69, R79, R94, R141 and R152, and the expiry commands
that come due (log entry 1). -/

namespace Sys2Proof.Machine

/-- A countdown of whole seconds comes due in this second. -/
def dueNow : Option Nat → Bool
  | some 1 => true
  | _ => false

/-- A countdown after one more second. -/
def lower (t : Option Nat) : Option Nat := t.map fun n => n - 1

/-- A zone after one more second: the remaining deadline counts down in ALARM (R141). -/
def ZoneState.tick : ZoneState → ZoneState
  | .alarm n => .alarm (n - 1)
  | st => st

/-- A zone record after one more second. -/
def Zone.tick (z : Zone) : Zone := { z with state := z.state.tick }

/-- The remaining deadline of a zone as a countdown. -/
def ZoneState.countdown? : ZoneState → Option Nat
  | .alarm n => some n
  | _ => none

/-- The countdowns of a shuttle after one more second. -/
def Shuttle.tick (r : Shuttle) : Shuttle :=
  { r with deadline := lower r.deadline, pollWait := lower r.pollWait, revivalRetry := lower r.revivalRetry }

/-- A crossing after one more second: a STOPPED crossing counts no deadline (R97). -/
def Crossing.tick (c : Crossing) : Crossing :=
  match c.state with
  | .running n => { c with state := .running (n - 1) }
  | .stopped => c

/-- The deadline of a crossing as a countdown. -/
def Crossing.countdown? (c : Crossing) : Option Nat :=
  match c.state with
  | .running n => some n
  | .stopped => none

/-- The expiry of the reply window, which is 15 ms (R76). -/
def State.replyDue (s : State) : List Instr := if s.alc.exchange.isSome then [.replyWindowExpiry] else []

/-- The zone deadlines that come due (R141). -/
def State.zonesDue (s : State) : List Instr :=
  (zones.filter fun z => dueNow (s.zoneState z).countdown?).map .zoneDeadlineExpiry

/-- The motion deadlines that come due (R69). -/
def State.motionsDue (s : State) : List Instr :=
  (aisles.filter fun a => dueNow (s.shuttle a).deadline).map .motionDeadlineExpiry

/-- The crossing deadline, if it comes due (R94). -/
def State.crossingDue (s : State) : List Instr :=
  if dueNow (s.lc.crossing.bind Crossing.countdown?) then [.crossingDeadlineExpiry] else []

/-- The revivals to be placed again (R152). -/
def State.retriesDue (s : State) : List Instr :=
  (aisles.filter fun a => dueNow (s.shuttle a).revivalRetry).map .revivalRetryDue

/-- The offline polls that come due (R79). -/
def State.pollsDue (s : State) : List Instr :=
  (aisles.filter fun a => dueNow (s.shuttle a).pollWait).map .offlinePollDue

/-- The commands the clock puts into the queue in this second. -/
def State.clockCommands (s : State) : List Instr :=
  s.replyDue ++ s.zonesDue ++ s.motionsDue ++ s.crossingDue ++ s.retriesDue ++ s.pollsDue

/-- One second passes (log entry 1). -/
def State.second (s : State) : State :=
  { s with
    fiu.zones := mapRow Zone.tick s.fiu.zones
    alc.shuttles := mapRow Shuttle.tick s.alc.shuttles
    lc.crossing := s.lc.crossing.map Crossing.tick
    pending := s.pending ++ s.clockCommands }

/-- What the block does with no command waiting: one second of its clock, once start-up has ended (log entry 1). -/
def State.idle (s : State) : State := s.whenRunning State.second

end Sys2Proof.Machine
end

