-- ==== Sys2Proof/Machine/SegmentsBins.lean ====
section
/-! DEFINITION. The requests on segments and bins (Chapter 1). -/

namespace Sys2Proof.Machine

/-! ## ENROL BIN (R12) -/

/-- The refusal of ENROL BIN after R4, if any: checks 3 and 4. -/
def enrolBinRefusal (o : Operands) (s : State) (b : BinNo) : Option Code :=
  firstFailing
    [((BinKind.ofCode (o.cell 2)).isSome && decide (1 ≤ o.cell 3) && decide (o.cell 3 ≤ 24), .badOperand),
     ((s.binRec? b).isNone, .duplicate)]

/-- The record ENROL BIN creates (R12). -/
def newBin (o : Operands) : BinRec :=
  { kind := (BinKind.ofCode (o.cell 2)).getD .collection, capacity := o.cell 3, itemCount := 0, pickedOut := 0
    place := .home, holder := none }

def enrolBin : Evaluation := fun o s =>
  match s.binOperand o with
  | .error c => .refuse c
  | .ok b =>
    match enrolBinRefusal o s b with
    | some c => .refuse c
    | none =>
      .answer .ok { a0 := word b.val, a1 := word (s.homeAisle b).val, a2 := word (s.homePosition b) }
        (s.putBin b (newBin o)).settle

def execEnrolBin (s : State) : Result := .next (s.takeRequest 0x01 enrolBin)

/-! ## RETIRE BIN (R13) -/

/-- The four conditions of R13. -/
def BinRec.retirable (r : BinRec) : Bool :=
  decide (r.place = .home) && decide (r.itemCount = 0) && decide (r.pickedOut = 0) && r.holder.isNone

def retireBin : Evaluation := fun o s =>
  match s.enrolledOperand o with
  | .error c => .refuse c
  | .ok (b, r) => if r.retirable then .answer .ok {} (s.eraseBin b) else .refuse .inUse

def execRetireBin (s : State) : Result := .next (s.takeRequest 0x02 retireBin)

/-! ## SET PLACE (R14) -/

/-- The target place of SET PLACE, by its place code (R14, R182). -/
def targetPlace? : Nat → Option Place
  | 0 => some .home | 9 => some .missing | _ => none

/-- The refusal of SET PLACE after R4, if any: checks 2 to 4. -/
def setPlaceRefusal (o : Operands) (r : BinRec) : Option Code :=
  firstFailing
    [((targetPlace? (o.cell 2)).isSome, .badOperand),
     (decide (r.place = .unverified) || decide (r.place = .missing), .wrongPlace),
     (r.holder.isNone, .inUse)]

def setPlace : Evaluation := fun o s =>
  match s.enrolledOperand o with
  | .error c => .refuse c
  | .ok (b, r) =>
    match setPlaceRefusal o r with
    | some c => .refuse c
    | none => .answer .ok {} (s.putBin b { r with place := (targetPlace? (o.cell 2)).getD .missing }).settle

def execSetPlace (s : State) : Result := .next (s.takeRequest 0x03 setPlace)

/-! ## READ BIN (R15) -/

/-- The qualifier field of READ BIN: a place without one gives the free value (log entry 6). -/
def Place.qualifierField (p : Place) : Nat :=
  match p.qualifier with
  | some q => q
  | none => (Config.absentQualifier p.code).toNat

/-- The answer of READ BIN (R15, R182). -/
def State.binAnswer (s : State) (b : BinNo) (r : BinRec) : Answer :=
  { a0 := word (r.kind.code * 16384 + (s.homeAisle b).val * 2048 + b.val)
    a1 := bytePair r.capacity r.itemCount
    a2 := bytePair r.pickedOut (byteOrNone (r.holder.map (·.val)))
    a3 := word (r.place.code * 4096 + r.place.qualifierField * 512 + s.homePosition b) }

def readBin : Evaluation := fun o s =>
  match s.enrolledOperand o with
  | .error c => .refuse c
  | .ok (b, r) => .answer .ok (s.binAnswer b r) s

def execReadBin (s : State) : Result := .next (s.takeRequest 0x04 readBin)

/-! ## DEFINE SEGMENT (R6, R7) -/

/-- The descriptor a DEFINE SEGMENT asks for, over the stored one; absent where a field is no defined code (R6 checks 1, 2). A
new descriptor that is not valid leaves the other fields unexamined. -/
def Operands.descriptor? (o : Operands) (old : Segment) : Option Segment :=
  match flag? (o.cell 1) with
  | none => none
  | some false => some { old with valid := false }
  | some true =>
    match index? 6 (o.cell 2), Direction.ofCode (o.highByte 5), AccessClass.ofCode (o.lowByte 5) with
    | some aisle, some direction, some cls =>
      if o.cell 3 ≤ 511 ∧ 1 ≤ o.cell 4 ∧ o.cell 4 ≤ 64 then
        some { valid := true, aisle, base := o.cell 3, length := o.cell 4, direction, cls, changed := old.changed }
      else none
    | _, _, _ => none

/-- Whether the home range lies within 0–511 (R6 check 3). -/
def Segment.inRack (d : Segment) : Bool :=
  match d.direction with
  | .up => decide (d.base + d.length ≤ 512)
  | .down => decide (d.length ≤ d.base + 1)

/-- Validity, aisle, base or direction differs (R6 check 5). -/
def Segment.moves (old new : Segment) : Bool :=
  old.valid != new.valid || old.aisle != new.aisle || old.base != new.base || decide (old.direction ≠ new.direction)

/-- Validity, aisle, base, length or direction differs (R6 checks 4 and 7). -/
def Segment.differs (old new : Segment) : Bool := old.moves new || old.length != new.length

/-- Two home ranges in one aisle share a position (R6 check 7). -/
def Segment.overlaps (d e : Segment) : Bool :=
  d.aisle == e.aisle && decide (d.lowest ≤ e.highest) && decide (e.lowest ≤ d.highest)

/-- Whether a descriptor for a segment overlaps any other valid segment (R6 check 7). -/
def State.overlapsOther (s : State) (g : SegNo) (d : Segment) : Bool :=
  segmentNumbers.any fun h => h != g && (s.segment h).valid && d.overlaps (s.segment h)

/-- Whether every enrolled bin of a segment lies among the valid offsets of a descriptor (R6 check 6). -/
def State.holdsEnrolled (s : State) (g : SegNo) (d : Segment) : Bool :=
  (s.enrolledIn g).all fun n => d.holdsOffset (n % 64)

/-- The refusal of DEFINE SEGMENT from check 3 on, if any (R6). -/
def State.defineRefusal (s : State) (g : SegNo) (new : Segment) : Option Code :=
  let old := s.segment g
  firstFailing
    [(!new.valid || new.inRack, .badOperand),
     (!old.differs new || !old.changed, .changedPending),
     (!old.moves new || (s.enrolledIn g).isEmpty, .segmentInUse),
     (old.moves new || old.length == new.length || s.holdsEnrolled g new, .segmentInUse),
     (!new.valid || !old.differs new || !s.overlapsOther g new, .overlap)]

/-- The home range in an answer, or the mark for none twice when the segment is not valid (R7). -/
def Segment.rangeAnswer (d : Segment) : Answer :=
  if d.valid then { a0 := word d.lowest, a1 := word d.highest } else { a0 := noneWord, a1 := noneWord }

def defineSegment : Evaluation := fun o s =>
  match index? 32 (o.cell 0) with
  | none => .refuse .badOperand
  | some g =>
    match o.descriptor? (s.segment g) with
    | none => .refuse .badOperand
    | some d =>
      match s.defineRefusal g d with
      | some c => .refuse c
      | none => .answer .ok d.rangeAnswer (s.putSegment g d)

def execDefineSegment (s : State) : Result := .next (s.takeRequest 0x05 defineSegment)

/-! ## READ SEGMENT, READ CHANGED, CLEAR CHANGED (R8, R10) -/

/-- The answer of READ SEGMENT (R8, R182). -/
def State.segmentAnswer (s : State) (g : SegNo) : Answer :=
  let d := s.segment g
  { a0 := word (flagCode d.valid * 32768 + flagCode d.changed * 16384 + d.aisle.val)
    a1 := word d.base
    a2 := bytePair d.length (s.enrolledIn g).length
    a3 := bytePair d.direction.code d.cls.code }

def readSegment : Evaluation := fun o s =>
  match index? 32 (o.cell 0) with
  | none => .refuse .badOperand
  | some g => .answer .ok (s.segmentAnswer g) s

def execReadSegment (s : State) : Result := .next (s.takeRequest 0x06 readSegment)

/-- The changed flags of a list of segments, the first at bit 0 (R182). -/
def State.changedMarks (s : State) : List SegNo → Nat
  | [] => 0
  | g :: rest => flagCode (s.segment g).changed + 2 * s.changedMarks rest

def readChanged : Evaluation := fun _ s =>
  .answer .ok { a0 := word (s.changedMarks (segmentNumbers.take 16)), a1 := word (s.changedMarks (segmentNumbers.drop 16)) } s

def execReadChanged (s : State) : Result := .next (s.takeRequest 0x07 readChanged)

def clearChanged : Evaluation := fun o s =>
  match index? 32 (o.cell 0) with
  | none => .refuse .badOperand
  | some g =>
    let d := s.segment g
    .answer .ok { a0 := word (flagCode d.changed) } (s.putSegment g { d with changed := false })

def execClearChanged (s : State) : Result := .next (s.takeRequest 0x08 clearChanged)

end Sys2Proof.Machine
end

