-- ==== Sys2Proof/Machine/ItemsPatrons.lean ====
section
/-! DEFINITION. The requests on the day, the categories, items and patrons (Chapter 2). -/

namespace Sys2Proof.Machine

/-! ## The day and the category table (R36, R38) -/

def setDay : Evaluation := fun o s =>
  if o.cell 0 < s.tab.day then .refuse .dayBackward
  else .answer .ok { a0 := word s.tab.day } { s with tab.day := o.cell 0 }

def execSetDay (s : State) : Result := .next (s.takeRequest 0x09 setDay)

def setCategory : Evaluation := fun o s =>
  match Category.ofCode (o.cell 0) with
  | none => .refuse .badOperand
  | some c =>
    if o.cell 1 ≤ 63 ∧ o.cell 2 ≤ 180 then
      .answer .ok { a0 := word (s.categoryRow c).limit, a1 := word (s.categoryRow c).maxDays }
        { s with tab.categories := s.tab.categories.set c.row { limit := o.cell 1, maxDays := o.cell 2 } }
    else .refuse .badOperand

def execSetCategory (s : State) : Result := .next (s.takeRequest 0x0A setCategory)

def readCategory : Evaluation := fun o s =>
  match Category.ofCode (o.cell 0) with
  | none => .refuse .badOperand
  | some c => .answer .ok { a0 := word (s.categoryRow c).limit, a1 := word (s.categoryRow c).maxDays } s

def execReadCategory (s : State) : Result := .next (s.takeRequest 0x0B readCategory)

/-! ## ENROL ITEM (R25) -/

/-- The presented bin of a station with its record, absent where none is presented or the station is no pick station. -/
def State.presentedBin? (s : State) (n : StationNo) : Option (BinNo × BinRec) :=
  match asPick? n with
  | none => none
  | some k =>
    match s.presented? k with
    | none => none
    | some b =>
      match s.binRec? b with
      | none => none
      | some r => some (b, r)

/-- Checks 1 to 6 of R25. -/
def enrolItemRefusal (t : Tag) (n : StationNo) (s : State) : Option Code :=
  firstFailing
    [(validTag t, .badOperand),
     (decide (n ≠ returnStation), .wrongState),
     (!s.heldStation n, .zoneLocked),
     (decide (s.stationState n = .opened), .stationClosed),
     ((s.item? t).isNone, .duplicate)]

/-- Checks 7 to 9 of R25, on the presented bin. -/
def enrolItemBinRefusal (r : BinRec) (s : State) : Option Code :=
  firstFailing
    [(decide (r.kind ≠ .hold), .wrongState),
     (decide (r.itemCount < r.capacity), .binFull),
     (decide (s.tab.items.length < Config.itemCapacity), .tableFull)]

def enrolItem : Evaluation := atContext fun n o s =>
  match enrolItemRefusal o.tag n s with
  | some c => .refuse c
  | none =>
    match s.presentedBin? n with
    | none => .refuse .notPresented
    | some (b, r) =>
      match enrolItemBinRefusal r s with
      | some c => .refuse c
      | none =>
        .answer .ok { a0 := word b.val, a1 := word (r.itemCount + 1) }
          ((s.putItem o.tag { state := .shelved b, holds := [] }).countIn b)

def execEnrolItem (s : State) : Result := .next (s.takeRequest 0x10 enrolItem)

/-! ## RETIRE ITEM (R27) -/

/-- What the state of a retired item changes besides its record (R27). -/
def State.retireFrom (t : Tag) (st : ItemState) (s : State) : State :=
  match st with
  | .shelved b => s.countOut b
  | .dropped => { s with dropList := s.dropList.erase t }
  | _ => s

/-- Whether an item may be retired by its state (R27). -/
def ItemState.retirable : ItemState → Bool
  | .shelved _ => true
  | .dropped => true
  | .lost => true
  | _ => false

def retireItem : Evaluation := fun o s =>
  if validTag o.tag then
    match s.item? o.tag with
    | none => .refuse .noRecord
    | some i =>
      if i.state.retirable then
        .answer .ok { a0 := word i.state.code, a1 := word i.holds.length }
          ((((s.retireFrom o.tag i.state).dropHolds i.holds).eraseItem o.tag).settle)
      else .refuse .wrongState
  else .refuse .badOperand

def execRetireItem (s : State) : Result := .next (s.takeRequest 0x11 retireItem)

/-! ## READ ITEM (R28) -/

/-- The SUMMARY section. -/
def Item.summary (i : Item) : Answer :=
  let place : Option Nat × Option Nat := match i.state with
    | .shelved b => (some b.val, none)
    | .held b => (some b.val, none)
    | .picked st b => (some st.val, some b.val)
    | _ => (none, none)
  { a0 := word i.state.code, a1 := wordOrNone place.1, a2 := wordOrNone place.2, a3 := word i.holds.length }

/-- The LOAN section; in other states each field is absent, the patron too (log entry 38). -/
def Item.loan (i : Item) : Answer :=
  match i.state with
  | .onLoan n due k => { a0 := highPart n, a1 := lowPart n, a2 := word due, a3 := word k }
  | _ => { a0 := noneWord, a1 := noneWord, a2 := noneWord, a3 := noneWord }

/-- The HOLD section at an index. -/
def Item.holdAt (i : Item) (k : Nat) : Answer :=
  let n := (i.holds[k]?).getD 0
  { a0 := highPart n, a1 := lowPart n, a2 := word i.holds.length }

/-- The section of an item that READ ITEM asks for, absent where the section or the index is out of range. -/
def Operands.itemSection? (o : Operands) (i : Item) : Option Answer :=
  match o.cell 2 with
  | 0 => some i.summary
  | 1 => some i.loan
  | 2 => if o.cell 3 ≤ 3 then some (i.holdAt (o.cell 3)) else none
  | _ => none

/-- The range checks of READ ITEM. -/
def Operands.itemReadable (o : Operands) : Bool :=
  validTag o.tag && decide (o.cell 2 ≤ 2) && (decide (o.cell 2 ≠ 2) || decide (o.cell 3 ≤ 3))

def readItem : Evaluation := fun o s =>
  if o.itemReadable then
    match s.item? o.tag with
    | none => .refuse .noRecord
    | some i =>
      match o.itemSection? i with
      | some a => .answer .ok a s
      | none => .refuse .badOperand
  else .refuse .badOperand

def execReadItem (s : State) : Result := .next (s.takeRequest 0x12 readItem)

/-! ## Patrons (R30 to R34) -/

def enrolPatron : Evaluation := fun o s =>
  match Category.ofCode (o.cell 2) with
  | none => .refuse .badOperand
  | some c =>
    match firstFailing
      [(validPatron o.patron, .badOperand),
       ((s.patron? o.patron).isNone, .duplicate),
       (decide (s.tab.patrons.length < Config.patronCapacity), .tableFull)] with
    | some c => .refuse c
    | none => .answer .ok {} (s.putPatron o.patron { category := c, holdCount := 0, blocked := false, loans := [] })

def execEnrolPatron (s : State) : Result := .next (s.takeRequest 0x13 enrolPatron)

/-- A request on a patron named in P0–P1: the number's range, then its record (R31 to R34). -/
def onPatron (e : PatronNo → Patron → Evaluation) : Evaluation := fun o s =>
  if validPatron o.patron then
    match s.patron? o.patron with
    | none => .refuse .noRecord
    | some p => e o.patron p o s
  else .refuse .badOperand

def retirePatron : Evaluation := onPatron fun n p _ s =>
  if p.loans = [] ∧ p.holdCount = 0 then .answer .ok {} (s.erasePatron n) else .refuse .inUse

def execRetirePatron (s : State) : Result := .next (s.takeRequest 0x14 retirePatron)

def setPatronBlock : Evaluation := fun o s =>
  match flag? (o.cell 2) with
  | none => .refuse .badOperand
  | some f =>
    onPatron (fun n p _ s => .answer .ok { a0 := word (flagCode p.blocked) } (s.putPatron n { p with blocked := f })) o s

def execSetPatronBlock (s : State) : Result := .next (s.takeRequest 0x15 setPatronBlock)

/-- The due day of the head of a loan list, absent when it is empty (R33). -/
def State.headDue? (s : State) (p : Patron) : Option Nat :=
  match p.loans with
  | [] => none
  | t :: _ => some (s.dueOf t)

/-- The overdue test: the head's due day is below the day number (R33, R117). -/
def State.overdue (s : State) (p : Patron) : Bool :=
  match s.headDue? p with
  | some d => decide (d < s.tab.day)
  | none => false

def readPatron : Evaluation := onPatron fun _ p _ s =>
  .answer .ok
    { a0 := bytePair p.category.code p.loans.length, a1 := bytePair p.holdCount (flagCode p.blocked)
      a2 := wordOrNone (s.headDue? p), a3 := word (flagCode (s.overdue p)) } s

def execReadPatron (s : State) : Result := .next (s.takeRequest 0x16 readPatron)

/-- The renewals of an item on loan; 0 for any other. -/
def State.renewalsOf (s : State) (t : Tag) : Nat :=
  match s.item? t with
  | some { state := .onLoan _ _ k, holds := _ } => k
  | _ => 0

/-- The answer of READ LOANS at an index (R34, R182): tag 0 and no loan fields at or beyond the loan count. -/
def State.loanAnswer (s : State) (p : Patron) (k : Nat) : Answer :=
  match p.loans[k]? with
  | some t =>
    { a0 := highPart t, a1 := lowPart t, a2 := word (s.dueOf t), a3 := bytePair (s.renewalsOf t) p.loans.length }
  | none => { a0 := 0, a1 := 0, a2 := noneWord, a3 := bytePair noneByte p.loans.length }

def readLoans : Evaluation := fun o s =>
  if o.cell 2 ≤ 62 then onPatron (fun _ p o s => .answer .ok (s.loanAnswer p (o.cell 2)) s) o s else .refuse .badOperand

def execReadLoans (s : State) : Result := .next (s.takeRequest 0x17 readLoans)

end Sys2Proof.Machine
end

