-- ==== Sys2Proof/Machine/OrderRequests.lean ====
section
/-! DEFINITION. The requests on orders, the audit and quiet running, and the grant of a freed entry (Chapter 3). -/

namespace Sys2Proof.Machine

/-- A priority operand 0–3. -/
def priority? (n : Nat) : Option (Fin 4) := index? 4 n

/-- Whether a class may be fetched to a station: IN_BUILDING and VIEW go to supervised stations (R46 check 6, R105). -/
def State.classAdmitted (s : State) (b : BinNo) (n : StationNo) : Bool :=
  match s.classOf b with
  | .inBuilding => s.supervised n
  | .view => s.supervised n
  | _ => true

/-- The answer that names an order. -/
def orderAnswer (e : OrderNo) : Answer := { a0 := word e.val }

/-! ## FETCH (R46, R47) -/

/-- Checks 3 to 10 of R46, for a pick station. -/
def fetchRefusal (s : State) (b : BinNo) (r : BinRec) (k : PickNo) : Option Code :=
  firstFailing
    [(decide (r.place = .home), .wrongPlace),
     (r.holder.isNone, .inUse),
     (decide (s.classOf b ≠ .closedClass), .access),
     (s.classAdmitted b (pickStation k), .access),
     (s.homeNormal b && s.hallNormal, .zoneLocked),
     (decide (s.stationState (pickStation k) = .opened), .stationClosed),
     (decide (s.stationLoad k < 4), .stationFull),
     (decide (s.ou.quiet = .active), .quiet)]

/-- The FETCH of an accepted request, with its reservation (R47). -/
def State.makeFetch (e : OrderNo) (b : BinNo) (pr : Fin 4) (k : PickNo) (s : State) : State :=
  (s.placeOrder e (plainOrder .fetch .host b (s.homeAisle b) pr .queued (some (.pick k)))).reserve k

def fetch : Evaluation := atContext fun n o s =>
  match s.enrolledOperand o with
  | .error c => .refuse c
  | .ok (b, r) =>
    match priority? (o.cell 2), asPick? n with
    | none, _ => .refuse .badOperand
    | some _, none => .refuse .wrongState
    | some pr, some k =>
      match fetchRefusal s b r k with
      | some c => .refuse c
      | none =>
        match s.freeEntry? with
        | none => .refuse .noOrderEntry
        | some e => .answer .ok (orderAnswer e) (s.makeFetch e b pr k).settle

def execFetch (s : State) : Result := .next (s.takeRequest 0x20 fetch)

/-! ## COLLECT (R44) and the claim list (R61) -/

/-- A bin that the audit cursor probes: UNVERIFIED, with holder none, its home zone NORMAL (R62). -/
def State.auditable (s : State) (b : BinNo) : Bool :=
  match s.binRec? b with
  | some r => decide (r.place = .unverified) && r.holder.isNone && s.homeNormal b
  | none => false

/-- The audit PROBE of a bin; the count rises and the cursor moves on (R62). -/
def State.makeAuditProbe (e : OrderNo) (b : BinNo) (s : State) : State :=
  let s := s.placeOrder e (plainOrder .probe .audit b (s.homeAisle b) 0 .queued none)
  { s with ou.auditCount := s.ou.auditCount + 1, ou.cursor := some (b.val + 1) }

/-- A dismissal claim is offered an entry (R61, R131). -/
def State.offerDismissal (e : OrderNo) (p : Position) (s : State) : Bool × State :=
  match s.position p with
  | .fullWaiting b => if s.mayDismiss then (true, s.wakeByNeed.dismissInto e p b) else (false, s)
  | _ => (false, s)

/-- A fetch claim is offered an entry: with an empty pool it leaves the list and the position is WANTING (R61, R18). -/
def State.offerFetch (e : OrderNo) (p : Position) (s : State) : Bool × State :=
  match s.poolFirst? p with
  | some b => (true, s.wakeByNeed.callBin e p b)
  | none => (false, s.enterWanting p)

/-- The cursor passes the bin of a claim that no longer qualifies. -/
def State.passAudit (b : BinNo) (s : State) : State := { s with ou.cursor := some (b.val + 1) }

/-- The audit cursor's claim is offered an entry; either way the claim leaves the list (R61). Outside ACTIVE the cursor stays where it
is, even at a bin that no longer qualifies, and tests it at its next step (log entry 37). -/
def State.offerAudit (e : OrderNo) (b : BinNo) (s : State) : Bool × State :=
  let t := s.withdrawClaims [(Claim.audit b).rank]
  if s.ou.quiet ≠ .active then (false, t)
  else if s.auditable b then (true, t.makeAuditProbe e b)
  else (false, t.passAudit b)

/-- A claim is offered a freed entry: whether it took it, and the state that leaves (R61). -/
def State.offer (e : OrderNo) (c : Claim) (s : State) : Bool × State :=
  match c with
  | .restore a b =>
    (true, (s.withdrawClaims [c.rank]).placeOrder e (plainOrder .restore .recovery b a 3 .queued none))
  | .dismissal p => s.offerDismissal e p
  | .fetch p => s.offerFetch e p
  | .audit b => s.offerAudit e b

/-- The first claim that can use an entry takes it (R61). -/
def State.offerAll (e : OrderNo) : List Claim → State → State
  | [], s => s
  | c :: rest, s =>
    match s.offer e c with
    | (true, t) => t
    | (false, t) => State.offerAll e rest t

/-- The claimants in the order of R61. -/
def claimRanks : List Nat := [0, 1, 2, 3, 4, 5, 6, 7, 8, 9, 10]

/-- The waiting claims in the order of R61. -/
def State.claimsInOrder (s : State) : List Claim := claimRanks.filterMap fun k => s.ou.claims.find? (·.rank == k)

/-- The lowest-numbered FINISHED entry with its order and outcome (R44). -/
def State.firstFinished? (s : State) : Option (OrderNo × Order × Outcome) :=
  orderNumbers.findSome? fun o =>
    match s.order? o with
    | some r =>
      match r.stage with
      | .finished out => some (o, r, out)
      | _ => none
    | none => none

/-- The answer of COLLECT (R44, R182). -/
def collectAnswer (e : OrderNo) (r : Order) (out : Outcome) : Answer :=
  { a0 := word e.val, a1 := bytePair r.kind.code r.source.code, a2 := word r.bin.val, a3 := word out.code }

/-- The entry is freed and offered to the claim list (R44, R61). -/
def State.freeAndOffer (e : OrderNo) (s : State) : State :=
  let s := s.freeOrder e
  s.offerAll e s.claimsInOrder

def collect : Evaluation := fun _ s =>
  match s.firstFinished? with
  | none => .refuse .nothingFinished
  | some (e, r, out) => .answer .ok (collectAnswer e r out) (s.freeAndOffer e).settle

def execCollect (s : State) : Result := .next (s.takeRequest 0x21 collect)

/-! ## READ ORDER (R45) -/

/-- The low byte of A3: the outcome, the stage at halt with the reason, or the mark for none (R182). -/
def Order.endField (r : Order) : Nat :=
  match r.stage with
  | .finished out => out.code
  | .halted h => h.stageAt.code * 16 + h.reason.code
  | .run _ => noneByte

def Order.answer (r : Order) : Answer :=
  { a0 := bytePair r.kind.code r.source.code
    a1 := word (flagCode r.cancel * 32768 + r.aisle.val * 2048 + r.bin.val)
    a2 := bytePair r.stage.code r.priority.val
    a3 := bytePair (byteOrNone (r.dest.map Dest.code)) r.endField }

/-- A request on an order named in P0: the number's range, then its entry. -/
def onOrder (e : OrderNo → Order → State → Reply) : Evaluation := fun o s =>
  match index? 32 (o.cell 0) with
  | none => .refuse .badOperand
  | some n =>
    match s.order? n with
    | none => .refuse .noRecord
    | some r => e n r s

def readOrder : Evaluation := onOrder fun _ r s => .answer .ok r.answer s

def execReadOrder (s : State) : Result := .next (s.takeRequest 0x22 readOrder)

/-! ## CANCEL ORDER (R55, R56) -/

/-- The cancel mark is set. -/
def State.markCancel (n : OrderNo) (r : Order) (s : State) : State := s.putOrder n { r with cancel := true }

/-- A FETCH cancelled in HOLDING goes back at once (R56). -/
def State.cancelHolding (n : OrderNo) (r : Order) (s : State) : State :=
  s.enterStage r.aisle n { r with cancel := true } .returning (.travel (s.homePosition r.bin))

/-- A FETCH cancelled in QUEUED leaves its queue, its bin is HOME, and it finishes CANCELLED (R55). The place is written whatever
stood there, an UNVERIFIED that R86 wrote included: R55 names it among the effects of the cancel (log entry 27). -/
def State.cancelQueued (n : OrderNo) (r : Order) (s : State) : State := (s.setPlace r.bin .home).finishOrder n .cancelled

/-- A cancel of a running FETCH, by its stage (R55). -/
def State.cancelRunning (n : OrderNo) (r : Order) (st : RunStage) (s : State) : Reply :=
  match st with
  | .queued => .answer .ok {} (s.cancelQueued n r).settle
  | .seeking => .answer .cancelTaken {} (s.markCancel n r)
  | .lifting => .answer .cancelTaken {} (s.markCancel n r)
  | .carrying => .answer .cancelTaken {} (s.markCancel n r)
  | .holding => .answer .cancelTaken {} (s.cancelHolding n r)
  | .returning => .answer .cancelTaken {} (s.markCancel n r)
  | .lowering => .answer .cancelTaken {} (s.markCancel n r)
  | _ => .refuse .wrongStage

def cancelOrder : Evaluation := onOrder fun n r s =>
  match r.stage with
  | .finished _ => .refuse .wrongStage
  | .halted _ => .answer .ok {} (s.finishOrder n .cancelled).settle
  | .run st => if r.kind = .fetch then s.cancelRunning n r st else .refuse .wrongStage

def execCancelOrder (s : State) : Result := .next (s.takeRequest 0x23 cancelOrder)

/-! ## RESUME ORDER (R58) -/

def resumeOrder : Evaluation := onOrder fun n r s =>
  match r.stage with
  | .halted h =>
    if h.reason ≠ .fire ∧ s.aisleNormal r.aisle = true then
      .wait (.resumeOrder n) (s.setSlot r.aisle (some .resume))
    else .refuse .wrongState
  | _ => .refuse .wrongState

def execResumeOrder (s : State) : Result := .next (s.takeRequest 0x24 resumeOrder)

/-! ## AUDIT, CANCEL AUDIT, AUDIT BIN (R62 to R64) -/

def audit : Evaluation := fun _ s =>
  if s.ou.sweep then .refuse .auditRunning
  else .answer .ok {} { s with ou.sweep := true, ou.cursor := some 0 }

def execAudit (s : State) : Result := .next (s.takeRequest 0x25 audit)

/-- The cursor is stopped, its claim withdrawn, and the sweep is not running (R63). -/
def State.stopSweep (s : State) : State :=
  let s := s.withdrawClaims [(Claim.audit 0).rank]
  { s with ou.sweep := false, ou.cursor := none }

def cancelAudit : Evaluation := fun _ s =>
  if s.ou.sweep then .answer .ok {} s.stopSweep else .refuse .wrongState

def execCancelAudit (s : State) : Result := .next (s.takeRequest 0x26 cancelAudit)

/-- Whether a bin's place lets it be probed on request (R64). -/
def Place.probable (p : Place) : Bool :=
  match p with
  | .home => true
  | .unverified => true
  | .missing => true
  | _ => false

/-- The zones AUDIT BIN asks for: the home zone (check 4 of R64), and with `needsHall` zone 3 as well (R141; log entry 29). -/
def State.auditZonesNormal (needsHall : Bool) (s : State) (b : BinNo) : Bool :=
  s.homeNormal b && (s.hallNormal || !needsHall)

/-- Checks 2 to 5 of R64, with the zones as R64 or R141 has them. -/
def auditBinRefusal (needsHall : Bool) (s : State) (b : BinNo) (r : BinRec) : Option Code :=
  firstFailing
    [(r.place.probable, .wrongPlace),
     (r.holder.isNone, .inUse),
     (s.auditZonesNormal needsHall b, .zoneLocked),
     (decide (s.ou.quiet = .active), .quiet)]

/-- The evaluation of AUDIT BIN (R64), under one reading of the zones it asks for (log entry 29). -/
def auditBinUnder (needsHall : Bool) : Evaluation := fun o s =>
  match s.enrolledOperand o with
  | .error c => .refuse c
  | .ok (b, r) =>
    match priority? (o.cell 2) with
    | none => .refuse .badOperand
    | some pr =>
      match auditBinRefusal needsHall s b r with
      | some c => .refuse c
      | none =>
        match s.freeEntry? with
        | none => .refuse .noOrderEntry
        | some e =>
          .answer .ok (orderAnswer e)
            (s.placeOrder e (plainOrder .probe .host b (s.homeAisle b) pr .queued none)).settle

/-- AUDIT BIN, under the reading that the spec leaves open (log entry 29). -/
def auditBin : Evaluation := auditBinUnder Config.auditBinNeedsHall

def execAuditBin (s : State) : Result := .next (s.takeRequest 0x27 auditBin)

/-! ## QUIESCE and WAKE (R65, R67) -/

def quiesce : Evaluation := fun _ s =>
  if s.ou.quiet = .active then .answer .ok {} (State.settle { s with ou.quiet := .quiescing }) else .answer .ok {} s

def execQuiesce (s : State) : Result := .next (s.takeRequest 0x28 quiesce)

def wake : Evaluation := fun _ s =>
  if s.ou.quiet = .active then .answer .ok {} s else .answer .ok {} s.becomeActive.settle

def execWake (s : State) : Result := .next (s.takeRequest 0x29 wake)

end Sys2Proof.Machine
end

