-- ==== Sys2Proof/Machine/AuditSweep.lean ====
section
/-! DEFINITION. The audit cursor's walk (R62). -/

namespace Sys2Proof.Machine

/-- The cursor at a bin that qualifies: it waits, with a claim when no entry is free, or creates the PROBE (R62). At a
count of 4, and in QUIESCING or QUIET, it waits without a claim, whether or not an entry is free (log entry 35). -/
def State.auditQualifying (b : BinNo) (s : State) : State :=
  if 4 ≤ s.ou.auditCount ∨ s.ou.quiet ≠ .active then s
  else
    match s.freeEntry? with
    | some e => (s.makeAuditProbe e b).settle
    | none => s.fileClaim (.audit b)

/-- The cursor at a number below 2048 (R62). -/
def State.auditAt (b : BinNo) (s : State) : State :=
  if s.auditable b then s.auditQualifying b else (s.passAudit b).settle

/-- The running cursor acts at the number it stands on; it waits while its claim is in the claim list (R62). -/
def State.stepCursor (s : State) : State :=
  if s.ou.sweep && !s.claims (Claim.audit 0).rank then
    match s.ou.cursor with
    | none => s
    | some n =>
      match bin? n with
      | some b => s.auditAt b
      | none => s.settle
  else s

def execAuditCursorStep (s : State) : Result := .next (s.whenRunning State.stepCursor)

end Sys2Proof.Machine
end

