-- ==== Sys2Proof/Machine/FireEvents.lean ====
section
/-! DEFINITION. The events of the fire panel and of the zone timers (R142, R146, R152). -/

namespace Sys2Proof.Machine

/-! ## ALARM_LINE_CHANGE (R142) -/

/-- The level of an alarm pin. -/
def State.setPin (z : ZoneNo) (active : Bool) (s : State) : State := { s with fiu.alm := s.fiu.alm.set z active }

/-- Whether an active line puts a zone into ALARM: it is NORMAL or in RECOVERY (R142). -/
def State.alarmable (s : State) (z : ZoneNo) : Bool :=
  decide (s.zoneState z = .normal) || decide (s.zoneState z = .recovery)

/-- A change of level is recorded, and an active line puts a NORMAL or RECOVERY zone into ALARM (R142). -/
def State.takeLine (z : ZoneNo) (active : Bool) (s : State) : State :=
  let s := s.setLine z active
  if active && s.alarmable z then (s.enterAlarm z).settle else s

/-- The pin changes in any phase; start-up reads it (R142, R159, R170). -/
def execAlarmLineChange (z : ZoneNo) (active : Bool) (s : State) : Result :=
  .next ((s.setPin z active).whenRunning (State.takeLine z active))

/-! ## ZONE_DEADLINE_EXPIRY (R146) -/

/-- The expiry of a zone's deadline acts while the zone is in ALARM (R146, R147). -/
def State.takeZoneExpiry (z : ZoneNo) (s : State) : State :=
  if s.zoneAlarm z then (s.expireZone z).settle else s

def execZoneDeadlineExpiry (z : ZoneNo) (s : State) : Result := .next (s.whenRunning (State.takeZoneExpiry z))

/-! ## REVIVAL_RETRY_DUE (R152) -/

/-- The revival STATUS of a shuttle that waits to be placed again is placed (R152). -/
def State.takeRevivalRetry (a : Aisle) (s : State) : State :=
  match (s.shuttle a).revivalRetry with
  | some _ => (s.placeRevivalAgain a).settle
  | none => s

def execRevivalRetryDue (a : Aisle) (s : State) : Result := .next (s.whenRunning (State.takeRevivalRetry a))

end Sys2Proof.Machine
end

