-- ==== Sys2Proof/Machine/LaneEvents.lean ====
section
/-! DEFINITION. The ends of crossings: LDONE (R95), LFLT and the crossing deadline (R96). -/

namespace Sys2Proof.Machine

/-- LDONE delivers the crossing in progress, RUNNING or STOPPED; with none it is ignored (R95, R97, R96). -/
def State.takeDone (s : State) : State :=
  match s.lc.crossing with
  | some c => (s.deliver c).settle
  | none => s

def execLdone (s : State) : Result := .next (s.whenRunning State.takeDone)

/-- LFLT fails the crossing in progress, RUNNING or STOPPED; with none it is ignored (R96, R97). -/
def State.takeLaneFault (s : State) : State :=
  match s.lc.crossing with
  | some c => (s.failCrossing c .laneFault).settle
  | none => s

def execLflt (s : State) : Result := .next (s.whenRunning State.takeLaneFault)

/-- The deadline of a RUNNING crossing expires (R96); a STOPPED crossing has none (R97). -/
def State.takeCrossingExpiry (s : State) : State :=
  match s.lc.crossing with
  | some c => if c.state = .stopped then s else (s.failCrossing c .laneOverdue).settle
  | none => s

def execCrossingDeadlineExpiry (s : State) : Result := .next (s.whenRunning State.takeCrossingExpiry)

end Sys2Proof.Machine
end

