-- ==== Sys2Proof/Machine/Lending.lean ====
section
/-! DEFINITION. The requests on lending and holds (Chapter 6). -/

namespace Sys2Proof.Machine

/-! ## The station checks (R109) -/

/-- A handling request: its operand ranges, then the station checks of R109, then its own checks at a pick station. -/
def handlingAt (inRange : Operands → Bool) (e : PickNo → Evaluation) : Evaluation := atContext fun n o s =>
  if inRange o then
    match asPick? n with
    | none => .refuse .wrongState
    | some k =>
      if s.heldStation n then .refuse .zoneLocked
      else if s.stationState n = .opened then e k o s
      else .refuse .stationClosed
  else .refuse .badOperand

/-- Whether a station takes record requests: OPEN, or FIRE_HELD with remembered state OPEN (R109). -/
def StationState.takesRecords : StationState → Bool
  | .opened => true
  | .fireHeld r => r
  | .closed => false

/-- A record request: its operand ranges, then the station checks of R109, then its own checks. -/
def recordAt (inRange : Operands → Bool) (e : Evaluation) : Evaluation := atContext fun n o s =>
  if inRange o then
    match asPick? n with
    | none => .refuse .wrongState
    | some _ => if (s.stationState n).takesRecords then e o s else .refuse .stationClosed
  else .refuse .badOperand

/-- The range check of a request that carries a tag in P0–P1. -/
def Operands.tagInRange (o : Operands) : Bool := validTag o.tag

/-- The range check of a request that carries a tag in P0–P1 and a patron in P2–P3. -/
def Operands.tagAndPatronInRange (o : Operands) : Bool := validTag o.tag && validPatron o.secondPatron

/-- The presented bin of a pick station with its record. -/
def State.presentedAt? (s : State) (k : PickNo) : Option (BinNo × BinRec) :=
  match s.presented? k with
  | none => none
  | some b =>
    match s.binRec? b with
    | none => none
    | some r => some (b, r)

/-! ## PICK (R111, R112) -/

/-- Whether an item lies in a bin, SHELVED or HELD. -/
def ItemState.liesIn (st : ItemState) (b : BinNo) : Bool :=
  match st with
  | .shelved c => c == b
  | .held c => c == b
  | _ => false

/-- Checks 3 and 4 of R111. -/
def pickRefusal (i : Item) (b : BinNo) (r : BinRec) : Option Code :=
  firstFailing [(i.state.liesIn b, .notPresented), (decide (r.pickedOut < 63), .itemsOut)]

/-- The changes of an accepted PICK (R112). -/
def State.pickItem (t : Tag) (i : Item) (k : PickNo) (b : BinNo) (s : State) : State :=
  (((s.putItem t { i with state := .picked k b }).countOut b).pickedOutUp b)

def pick : Evaluation := handlingAt Operands.tagInRange fun k o s =>
  match s.item? o.tag with
  | none => .refuse .noRecord
  | some i =>
    match s.presentedAt? k with
    | none => .refuse .notPresented
    | some (b, r) =>
      match pickRefusal i b r with
      | some c => .refuse c
      | none =>
        .answer .ok
          { a0 := word b.val, a1 := bytePair (r.itemCount - 1) (r.pickedOut + 1), a2 := word i.holds.length }
          (s.pickItem o.tag i k b)

def execPick (s : State) : Result := .next (s.takeRequest 0x40 pick)

/-! ## PUT BACK (R113, R114) -/

/-- The origin of an item PICKED at a station, absent for any other item. -/
def ItemState.originAt? (st : ItemState) (k : PickNo) : Option BinNo :=
  match st with
  | .picked j b => if j = k then some b else none
  | _ => none

/-- Checks 4 to 6 of R113. -/
def putBackRefusal (s : State) (i : Item) (origin target : BinNo) (r : BinRec) : Option Code :=
  firstFailing
    [(decide (s.classOf origin ≠ .view) || target == origin, .origin),
     (decide (r.kind ≠ .hold) || !i.holds.isEmpty, .wrongState),
     (decide (r.itemCount < r.capacity), .binFull)]

/-- The state an item put into a bin takes (R114). -/
def stateInto (b : BinNo) (r : BinRec) : ItemState := if r.kind = .hold then .held b else .shelved b

/-- The changes of an accepted PUT BACK (R114). -/
def State.putItemBack (t : Tag) (i : Item) (origin target : BinNo) (r : BinRec) (s : State) : State :=
  ((s.putItem t { i with state := stateInto target r }).pickedOutDown origin).countIn target

def putBack : Evaluation := handlingAt Operands.tagInRange fun k o s =>
  match s.item? o.tag with
  | none => .refuse .noRecord
  | some i =>
    match i.state.originAt? k with
    | none => .refuse .wrongState
    | some origin =>
      match s.presentedAt? k with
      | none => .refuse .notPresented
      | some (target, r) =>
        match putBackRefusal s i origin target r with
        | some c => .refuse c
        | none =>
          .answer .ok { a0 := word target.val, a1 := word (r.itemCount + 1), a2 := word (stateInto target r).code }
            (s.putItemBack o.tag i origin target r)

def execPutBack (s : State) : Result := .next (s.takeRequest 0x41 putBack)

/-! ## CHARGE (R117 to R119) -/

/-- Whether the class of the origin's segment permits a loan (R118). -/
def State.classPermits (s : State) (origin : BinNo) (days : Nat) (k : PickNo) : Bool :=
  match s.classOf origin with
  | .openClass => true
  | .inBuilding => decide (days = 0) && s.supervised (pickStation k)
  | .view => false
  | .closedClass => false

/-- Checks 4 to 10 of R117. -/
def chargeRefusal (s : State) (i : Item) (origin : BinNo) (n : PatronNo) (p : Patron) (days : Nat) (k : PickNo) :
    Option Code :=
  firstFailing
    [(!p.blocked, .blocked),
     (!s.overdue p, .overdue),
     (decide (p.loans.length < (s.categoryRow p.category).limit), .limit),
     (decide (days ≤ (s.categoryRow p.category).maxDays), .badOperand),
     (decide (s.tab.day + days ≤ Config.maxDay), .badOperand),
     (s.classPermits origin days k, .access),
     (i.holds.isEmpty || i.holds.head? == some n, .heldForOther)]

/-- The hold list after a CHARGE to a patron (R119). -/
def holdsAfterCharge (n : PatronNo) : List PatronNo → List PatronNo
  | [] => []
  | x :: rest => if x = n then rest else x :: rest

/-- The changes of an accepted CHARGE (R119). -/
def State.chargeItem (t : Tag) (i : Item) (origin : BinNo) (n : PatronNo) (due : Nat) (s : State) : State :=
  let s := s.putItem t { state := .onLoan n due 0, holds := holdsAfterCharge n i.holds }
  let s := (s.addLoan n t due).pickedOutDown origin
  if i.holds.head? = some n then s.holdCountDown n else s

/-- The answer of CHARGE, from the state it leaves (R119, R182). -/
def State.chargeAnswer (s : State) (t : Tag) (n : PatronNo) (due remaining : Nat) : Answer :=
  { a0 := word due, a1 := word (s.loanCount n), a2 := word (s.loanIndex n t), a3 := word remaining }

/-- The evaluation of CHARGE (R117), under one reading of the presented bin: with `needsBin` a station without a presented bin refuses
a PICKED item, as R39 and R115 have it, at the place and with the code that R113 gives PUT BACK (check 3, NOT_PRESENTED); without it
the presented bin is not read, as R110 and R117 have it (log entry 28). -/
def chargeUnder (needsBin : Bool) : Evaluation := handlingAt Operands.tagAndPatronInRange fun k o s =>
  match s.item? o.tag with
  | none => .refuse .noRecord
  | some i =>
    match i.state.originAt? k with
    | none => .refuse .wrongState
    | some origin =>
      if (s.presentedAt? k).isNone && needsBin then .refuse .notPresented
      else
        match s.patron? o.secondPatron with
        | none => .refuse .noRecord
        | some p =>
          match chargeRefusal s i origin o.secondPatron p (o.cell 4) k with
          | some c => .refuse c
          | none =>
            let due := s.tab.day + o.cell 4
            let t := s.chargeItem o.tag i origin o.secondPatron due
            .answer .ok (t.chargeAnswer o.tag o.secondPatron due (holdsAfterCharge o.secondPatron i.holds).length) t

/-- CHARGE, under the reading that the spec leaves open (log entry 28). -/
def charge : Evaluation := chargeUnder Config.chargeNeedsBin

def execCharge (s : State) : Result := .next (s.takeRequest 0x42 charge)

/-! ## RENEW (R120) -/

/-- Checks 3 to 7 of R120. -/
def renewRefusal (s : State) (i : Item) (due renewals : Nat) (p : Patron) (days : Nat) : Option Code :=
  firstFailing
    [(decide (renewals < 3), .renewLimit),
     (i.holds.isEmpty, .heldForOther),
     (decide (days ≤ (s.categoryRow p.category).maxDays), .badOperand),
     (decide (s.tab.day + days ≤ Config.maxDay), .badOperand),
     (decide (due ≤ s.tab.day + days), .badOperand)]

/-- The changes of an accepted RENEW (R120). -/
def State.renewItem (t : Tag) (i : Item) (n : PatronNo) (due renewals : Nat) (s : State) : State :=
  (s.putItem t { i with state := .onLoan n due (renewals + 1) }).moveLoan n t due

def renewLoan (t : Tag) (i : Item) (n : PatronNo) (due renewals days : Nat) (s : State) : Reply :=
  match s.patron? n with
  | none => .refuse .noRecord
  | some p =>
    match renewRefusal s i due renewals p days with
    | some c => .refuse c
    | none =>
      let u := s.renewItem t i n (s.tab.day + days) renewals
      .answer .ok { a0 := word (s.tab.day + days), a1 := word (renewals + 1), a2 := word (u.loanIndex n t) } u

def renew : Evaluation := handlingAt Operands.tagInRange fun _ o s =>
  match s.item? o.tag with
  | none => .refuse .noRecord
  | some i =>
    match i.state with
    | .onLoan n due renewals => renewLoan o.tag i n due renewals (o.cell 2) s
    | _ => .refuse .wrongState

def execRenew (s : State) : Result := .next (s.takeRequest 0x43 renew)

/-! ## DECLARE LOST (R121) -/

/-- Whether a bin's place is MISSING or UNVERIFIED (R121). -/
def State.binInDoubt (s : State) (b : BinNo) : Bool :=
  match s.binRec? b with
  | some r => decide (r.place = .missing) || decide (r.place = .unverified)
  | none => false

/-- The item becomes LOST with its hold list emptied (R121). -/
def State.loseItem (t : Tag) (i : Item) (s : State) : State :=
  (s.dropHolds i.holds).putItem t { state := .lost, holds := [] }

def declareLost : Evaluation := recordAt Operands.tagInRange fun o s =>
  match s.item? o.tag with
  | none => .refuse .noRecord
  | some i =>
    match i.state with
    | .onLoan n _ _ =>
      .answer .ok { a0 := 0, a1 := highPart n, a2 := lowPart n, a3 := word i.holds.length }
        ((s.removeLoan n o.tag).loseItem o.tag i)
    | .shelved b =>
      if s.binInDoubt b then
        .answer .ok { a0 := 1, a1 := word b.val, a3 := word i.holds.length } ((s.countOut b).loseItem o.tag i)
      else .refuse .wrongState
    | _ => .refuse .wrongState

def execDeclareLost (s : State) : Result := .next (s.takeRequest 0x44 declareLost)

/-! ## PLACE HOLD (R123, R124) -/

/-- Whether an item is ON_LOAN to a patron. -/
def ItemState.lentTo (st : ItemState) (n : PatronNo) : Bool :=
  match st with
  | .onLoan m _ _ => m == n
  | _ => false

/-- Checks 3 to 6 of R123. -/
def placeHoldRefusal (i : Item) (n : PatronNo) (p : Patron) : Option Code :=
  firstFailing
    [(decide (i.state ≠ .lost), .wrongState),
     (!i.holds.contains n, .duplicate),
     (decide (i.holds.length < 4) && decide (p.holdCount < 8), .holdLimit),
     (!i.state.lentTo n, .wrongState)]

/-- The due day a recall leaves (R124). -/
def State.recalledDue (s : State) (due : Nat) : Nat := min due (min (s.tab.day + 7) Config.maxDay)

/-- The item's state after a hold is placed on it: R122 for one lying in a bin, the recall of R124 for one on loan. -/
def State.heldState (s : State) (holds : List PatronNo) (st : ItemState) : ItemState :=
  match st with
  | .onLoan n due k => .onLoan n (s.recalledDue due) k
  | st => s.stateByHolds holds st

/-- The recall moves the item in its borrower's loan list when it shortens the loan (R124). -/
def State.recall (t : Tag) (st : ItemState) (s : State) : State :=
  match st with
  | .onLoan n due _ => if s.recalledDue due < due then s.moveLoan n t (s.recalledDue due) else s
  | _ => s

/-- The changes of an accepted PLACE HOLD (R123, R124). -/
def State.addHold (t : Tag) (i : Item) (n : PatronNo) (s : State) : State :=
  let holds := i.holds ++ [n]
  ((s.putItem t { state := s.heldState holds i.state, holds := holds }).holdCountUp n).recall t i.state

/-- The due day of an item on loan, absent for any other. -/
def ItemState.due? : ItemState → Option Nat
  | .onLoan _ due _ => some due
  | _ => none

def placeHold : Evaluation := recordAt Operands.tagAndPatronInRange fun o s =>
  match s.item? o.tag with
  | none => .refuse .noRecord
  | some i =>
    match s.patron? o.secondPatron with
    | none => .refuse .noRecord
    | some p =>
      match placeHoldRefusal i o.secondPatron p with
      | some c => .refuse c
      | none =>
        let st := s.heldState (i.holds ++ [o.secondPatron]) i.state
        .answer .ok { a0 := word i.holds.length, a1 := word st.code, a2 := wordOrNone st.due? }
          (s.addHold o.tag i o.secondPatron)

def execPlaceHold (s : State) : Result := .next (s.takeRequest 0x45 placeHold)

/-! ## CANCEL HOLD (R125) -/

/-- The changes of an accepted CANCEL HOLD (R125, R122). -/
def State.removeHold (t : Tag) (i : Item) (n : PatronNo) (s : State) : State :=
  let holds := i.holds.erase n
  (s.putItem t { state := s.stateByHolds holds i.state, holds := holds }).holdCountDown n

def cancelHold : Evaluation := recordAt Operands.tagAndPatronInRange fun o s =>
  match s.item? o.tag with
  | none => .refuse .noRecord
  | some i =>
    if i.holds.contains o.secondPatron then
      let holds := i.holds.erase o.secondPatron
      let head := holds.head?.getD 0
      .answer .ok
        { a0 := word holds.length, a1 := highPart head, a2 := lowPart head
          a3 := word (s.stateByHolds holds i.state).code }
        (s.removeHold o.tag i o.secondPatron)
    else .refuse .noRecord

def execCancelHold (s : State) : Result := .next (s.takeRequest 0x46 cancelHold)

end Sys2Proof.Machine
end

