-- ==== Sys2Proof/Machine/LinkEvents.lean ====
section
/-! DEFINITION. The events of the aisle link (R76, R78, R79, R82, R73). -/

namespace Sys2Proof.Machine

/-! ## OFFLINE_POLL_DUE (R79) -/

/-- The 2 s since the last offline poll of a shuttle began have passed (R79). -/
def State.pollDue (a : Aisle) (s : State) : State := s.changeShuttle a fun r => { r with pollWait := none }

def execOfflinePollDue (a : Aisle) (s : State) : Result := .next (s.whenRunning (State.pollDue a))

/-! ## LINK_GRANT (R78) -/

/-- The arbiter grants the link when it is free (R78). -/
def State.takeLinkGrant (s : State) : State :=
  match s.alc.exchange with
  | none => s.grantLink
  | some _ => s

def execLinkGrant (s : State) : Result := .next (s.whenRunning State.takeLinkGrant)

/-! ## ANSWER_RECEIVED, ANSWER_INVALID, REPLY_WINDOW_EXPIRY (R76) -/

/-- The exchange in progress ends with what the characters say; characters that make no valid answer count as none (R75). -/
def State.takeAnswer (chars : List LinkChar) (s : State) : State :=
  match s.alc.exchange with
  | some x => (s.endExchange x (readAnswer? x.kind chars)).settle
  | none => s

def execAnswerReceived (chars : List LinkChar) (s : State) : Result := .next (s.whenRunning (State.takeAnswer chars))

/-- The exchange in progress ends with no answer (R76). -/
def State.takeNoAnswer (s : State) : State :=
  match s.alc.exchange with
  | some x => (s.endExchange x none).settle
  | none => s

def execAnswerInvalid (s : State) : Result := .next (s.whenRunning State.takeNoAnswer)

def execReplyWindowExpiry (s : State) : Result := .next (s.whenRunning State.takeNoAnswer)

/-! ## MOTION_DEADLINE_EXPIRY (R82) -/

/-- The deadline of an accepted motion that runs expires (R82). -/
def State.takeMotionExpiry (a : Aisle) (s : State) : State :=
  match (s.shuttle a).deadline with
  | some _ => (s.overrun a).settle
  | none => s

def execMotionDeadlineExpiry (a : Aisle) (s : State) : Result := .next (s.whenRunning (State.takeMotionExpiry a))

/-! ## RECEIVED_CHARACTER_DISCARDED (R73) -/

/-- A character that belongs to no answer is discarded (R73). -/
def execReceivedCharacterDiscarded (_ : LinkChar) (s : State) : Result := .next s

end Sys2Proof.Machine
end

