-- ==== Sys2Proof/Machine/Resets.lean ====
section
/-! DEFINITION. The soft reset and the power-on reset: RESET CONTROLLER (R168), RESET_ASSERTED (R169) and START_UP (R170). -/

namespace Sys2Proof.Machine

/-! ## The bin table at a reset (R22) -/

/-- The places a soft reset writes UNVERIFIED (R22). -/
def Place.lostBySoftReset : Place → Bool
  | .onShuttle _ => true
  | .crossing => true
  | .stranded => true
  | _ => false

/-- The places a power-on reset writes UNVERIFIED (R22). -/
def Place.lostByPowerOn : Place → Bool
  | .home => false
  | .unverified => false
  | .missing => false
  | _ => true

/-- A bin record after a reset: its place UNVERIFIED if the reset loses it, its holder none (R22). -/
def BinRec.afterReset (lost : Place → Bool) (r : BinRec) : BinRec :=
  { r with place := if lost r.place then .unverified else r.place, holder := none }

/-- The place and holder writes of a reset (R22). -/
def State.resetBins (lost : Place → Bool) (s : State) : State :=
  { s with tab.bins := tableMap (BinRec.afterReset lost) s.tab.bins }

/-- The number of bins a soft reset makes UNVERIFIED (R168). -/
def State.softResetLosses (s : State) : Nat := (s.tab.bins.filter fun e => e.2.place.lostBySoftReset).length

/-- The number of order entries a soft reset frees (R168). -/
def State.takenEntries (s : State) : Nat := (orderNumbers.filter fun o => (s.order? o).isSome).length

/-- The drop list is rebuilt from the item table (R136). -/
def State.rebuildDropList (s : State) : State := { s with dropList := droppedTags s.tab.items }

/-! ## RESET CONTROLLER (R168) -/

/-- The lane after a soft reset: places, LSTOP and pulses kept, the crossing dropped, the pointer at station 4 (R90, R93,
R98). -/
def LaneUnit.afterSoftReset (l : LaneUnit) : LaneUnit := { l with crossing := none, pointer := 10, lsrc := 0, ldst := 0 }

/-- A position after a soft reset: ARRIVING becomes EMPTY, and a WANTING position of an OPEN station is examined afresh
(R127, R133). -/
def PosState.afterSoftReset (isOpen : Bool) : PosState → PosState
  | .arriving _ => .empty
  | .wanting => if isOpen then .empty else .wanting
  | p => p

/-- The stations after a soft reset: kept, with the reserved counts 0 (R99, R127). -/
def StationUnit.afterSoftReset (u : StationUnit) (isOpen : Bool) : StationUnit :=
  { u with
    reserved := Vector.replicate 4 0
    intake := u.intake.afterSoftReset isOpen
    hold := u.hold.afterSoftReset isOpen }

/-- The window after a soft reset, but for the end of the request (R168). -/
def Window.afterSoftReset (w : Window) : Window :=
  { w with p := Vector.replicate 6 0, context := 0, release := .none, enable := 0, levels := 0 }

/-- Every block as its chapter gives it for a soft reset, before the Fire Interlock Unit deals with the zones (R168). -/
def State.softResetBlocks (s : State) : State :=
  let open4 := s.returnOpen
  let s := (s.resetBins Place.lostBySoftReset).rebuildDropList
  { s with
    ou := resetOrderUnit
    alc := resetLinkUnit
    lc := s.lc.afterSoftReset
    su := s.su.afterSoftReset open4
    au.latches := 0
    win := s.win.afterSoftReset }

/-- The soft reset (R168); the settling deals with each zone by the state it kept (R160) and examines the positions (R127). -/
def State.softReset (s : State) : State := s.softResetBlocks.settle

def resetController : Evaluation := fun _ s =>
  .answer .ok { a0 := word s.softResetLosses, a1 := word s.takenEntries } s.softReset

def execResetController (s : State) : Result := .next (s.takeRequest 0x70 resetController)

/-! ## RESET_ASSERTED (R169) -/

/-- What the battery left of the format mark (R21). -/
def markAfter (m : MemoryFate) (mark : Bool) : Bool :=
  match m with
  | .kept => mark
  | .lost => false

/-- RESET is asserted or the supply rises: the window as R169 gives, a start-up in progress abandoned, LDIR released and the link
silent (R73, R170). The other volatile state stands until START_UP builds it anew (log entry 4). -/
def State.assertReset (m : MemoryFate) (s : State) : State :=
  { s with formatMark := markAfter m s.formatMark, win := startingWindow, phase := .starting
           alc.exchange := none, alc.line := [restingLine] }

def execResetAsserted (m : MemoryFate) (s : State) : Result := .next (s.assertReset m)

/-! ## START_UP (R170) -/

/-- The pending-update record is completed into the tables or discarded (R20). -/
def State.settleUpdate (s : State) : State :=
  match s.pendingUpdate with
  | some u => if u.complete then { s with tab := u.image, pendingUpdate := none } else { s with pendingUpdate := none }
  | none => s

/-- The retained memory is formatted when its format mark is absent; the mark is written last (R21). -/
def State.format (s : State) : State :=
  if s.formatMark then s else { s with tab := formattedTables, pendingUpdate := none, formatMark := true }

/-- The volatile state is built anew, all zones NORMAL with their lines released (R170 step 4, R98, R99, R127, R136, R177). -/
def State.rebuild (s : State) : State :=
  State.rebuildDropList
    { s with
      ou := resetOrderUnit
      alc := resetLinkUnit
      lc := { resetLaneUnit with lgoPulses := s.lc.lgoPulses }
      su := resetStationUnit
      au := resetAttentionUnit }

/-- A zone at start-up by the level of its alarm line: NORMAL, or through ALARM to SEALED (R159). -/
def startZone (active : Bool) : Zone :=
  if active then { state := .sealed, line := true, clr := true } else { state := .normal, line := false, clr := false }

/-- The zones are set from the alarm lines: a sealed zone latches ZONE_ALARM and ZONE_SEALED, and zone 3 sealed holds the lane
and the stations (R159, R98, R99). -/
def State.startZones (s : State) : State :=
  let s := { s with fiu.zones := mapRow startZone s.fiu.alm }
  let s := if s.fiu.alm.toList.any id then (s.latch .zoneAlarm).latch .zoneSealed else s
  if s.fiu.alm[frontHall] then
    { s with lc.lstop := true, su.states := Vector.replicate 5 (.fireHeld false) }
  else s

/-- Start-up ends: BUSY clears, and the window takes its values from the rebuilt state (R169). -/
def State.endStartUp (s : State) : State := { s with win.busy := false, phase := .running }

/-- The steps of start-up (R170). -/
def State.startUp (s : State) : State :=
  (s.settleUpdate.format.resetBins Place.lostByPowerOn).rebuild.startZones.endStartUp

def execStartUp (s : State) : Result :=
  .next (match s.phase with
    | .starting => s.startUp
    | .running => s)

end Sys2Proof.Machine
end

