-- ==== Sys2Proof/Machine/Returns.lean ====
section
/-! DEFINITION. The requests of the return station (Chapter 7). -/

namespace Sys2Proof.Machine

/-- Checks 1 to 4 of R134 and R137. -/
def returnRefusal (t : Tag) (n : StationNo) (s : State) : Option Code :=
  firstFailing
    [(validTag t, .badOperand),
     (decide (n = returnStation), .wrongState),
     (!s.heldStation n, .zoneLocked),
     (decide (s.stationState n = .opened), .stationClosed)]

/-! ## RETURN ITEM (R134, R135) -/

/-- The bin that stands PRESENTED in a position, which is an enrolled bin (R127, R135). -/
def State.presentedIn? (s : State) (p : Position) : Option BinNo :=
  match s.position p with
  | .presented b => if (s.binRec? b).isSome then some b else none
  | _ => none

/-- Checks 6 to 8 of R134. -/
def returnItemRefusal (s : State) (i : Item) : Option Code :=
  firstFailing
    [(decide (i.state.code ≠ 0) && decide (i.state.code ≠ 1), .wrongState),
     (decide (i.state ≠ .dropped), .duplicate),
     ((s.presentedIn? (routeOf i)).isSome || decide (s.dropList.length < Config.dropCapacity), .dropFull)]

/-- The item's former state ends (R135). -/
def State.endFormer (t : Tag) (st : ItemState) (s : State) : State :=
  match st with
  | .onLoan n _ _ => s.removeLoan n t
  | .picked _ origin => s.pickedOutDown origin
  | _ => s

/-- An append that leaves the drop list at 24 or more wakes the wing out of QUIET (R136, R67). -/
def State.reportDrop (s : State) : State :=
  if Config.dropWakeLength ≤ s.dropList.length then s.wakeByNeed else s

/-- The item becomes DROPPED at the tail of the drop list (R135, R136). -/
def State.dropItem (t : Tag) (i : Item) (s : State) : State :=
  let s := s.putItem t { i with state := .dropped }
  State.reportDrop { s with dropList := s.dropList ++ [t] }

/-- Whether a position is FULL_WAITING. -/
def PosState.isFullWaiting : PosState → Bool
  | .fullWaiting _ => true
  | _ => false

/-- The former-patron high part of RETURN ITEM's A0: a free value for an item that was not ON_LOAN (log entry 6). -/
def ItemState.patronField (st : ItemState) : Nat :=
  match st with
  | .onLoan n _ _ => n / 65536 % 16
  | _ => (Config.absentPatronHigh st.code).toNat

/-- A0 and A3 of RETURN ITEM (R182): the former state, its patron and the route. For an item that was not ON_LOAN the patron is absent:
A3 holds the mark for none (R180), where R29 has 0 stand for no patron (log entry 38). -/
def Item.returnAnswer (i : Item) (a1 a2 : Word) : Answer :=
  { a0 := word (i.state.patronField * 4096 + i.state.code * 256 + (routeOf i).code), a1, a2
    a3 := match i.state with
      | .onLoan n _ _ => lowPart n
      | _ => noneWord }

/-- An item count with its full mark at bit 15 (R182). -/
def State.countCell (s : State) (b : BinNo) : Word := word (flagCode (s.binFull b) * 32768 + s.itemCountOf b)

/-- An accepted RETURN ITEM: placed or dropped by its route (R135). -/
def returnAccepted (t : Tag) (i : Item) (s : State) : Reply :=
  let s := s.endFormer t i.state
  match s.presentedIn? (routeOf i) with
  | some b =>
    let s := s.placeReturned (routeOf i) b t i.holds
    .answer .ok (i.returnAnswer (word b.val) (s.countCell b)) s.settle
  | none =>
    .answer .ok (i.returnAnswer noneWord (bytePair s.dropList.length (s.dropList.length + 1))) (s.dropItem t i).settle

def returnItem : Evaluation := atContext fun n o s =>
  match returnRefusal o.tag n s with
  | some c => .refuse c
  | none =>
    match s.item? o.tag with
    | none => .refuse .noRecord
    | some i =>
      match returnItemRefusal s i with
      | some c => .refuse c
      | none => returnAccepted o.tag i s

def execReturnItem (s : State) : Result := .next (s.takeRequest 0x50 returnItem)

/-! ## PLACE DROPPED (R137) -/

/-- An accepted PLACE DROPPED (R137). -/
def placeAccepted (t : Tag) (i : Item) (b : BinNo) (s : State) : Reply :=
  let s := { s with dropList := s.dropList.erase t }
  let s := s.placeReturned (routeOf i) b t i.holds
  .answer .ok
    { a0 := word (routeOf i).code, a1 := word b.val, a2 := s.countCell b, a3 := word s.dropList.length } s.settle

def placeDropped : Evaluation := atContext fun n o s =>
  match returnRefusal o.tag n s with
  | some c => .refuse c
  | none =>
    match s.item? o.tag with
    | none => .refuse .noRecord
    | some i =>
      if i.state = .dropped then
        match s.presentedIn? (routeOf i) with
        | some b => placeAccepted o.tag i b s
        | none => .refuse (if (s.position (routeOf i)).isFullWaiting then .binFull else .notPresented)
      else .refuse .wrongState

def execPlaceDropped (s : State) : Result := .next (s.takeRequest 0x51 placeDropped)

/-! ## CLOSE POSITION (R132) -/

/-- The answer of CLOSE POSITION, from the state it leaves: the STOW that took the bin, or the mark for none while the
position is FULL_WAITING (R132, R182). -/
def State.closeAnswer (s : State) (p : Position) (b : BinNo) : Answer :=
  { a0 := if s.position p = .fullWaiting b then noneWord
      else match s.binRec? b with
        | some r => wordOrNone (r.holder.map (·.val))
        | none => noneWord
    a1 := word (s.position p).code }

def closePosition : Evaluation := atContext fun n o s =>
  match Position.ofCode (o.cell 0) with
  | none => .refuse .badOperand
  | some p =>
    if n ≠ returnStation then .refuse .wrongState
    else if s.heldStation n then .refuse .zoneLocked
    else
      match s.position p with
      | .presented b =>
        let t := (s.setPosition p (.fullWaiting b)).settle
        .answer .ok (t.closeAnswer p b) t
      | .fullWaiting b => .answer .ok (s.closeAnswer p b) s
      | _ => .refuse .notPresented

def execClosePosition (s : State) : Result := .next (s.takeRequest 0x52 closePosition)

/-! ## READ DROP LIST (R138) -/

/-- The route of a tag, absent for one without a record. -/
def State.routeOfTag? (s : State) (t : Tag) : Option Nat := (s.item? t).map fun i => (routeOf i).code

/-- The answer of READ DROP LIST at an index: tag 0 and no route at or beyond the length (R138, R182). -/
def State.dropAnswer (s : State) (k : Nat) : Answer :=
  match s.dropList[k]? with
  | some t =>
    { a0 := word s.dropList.length, a1 := highPart t, a2 := lowPart t, a3 := wordOrNone (s.routeOfTag? t) }
  | none => { a0 := word s.dropList.length, a1 := 0, a2 := 0, a3 := noneWord }

def readDropList : Evaluation := fun o s =>
  if o.cell 0 ≤ 31 then .answer .ok (s.dropAnswer (o.cell 0)) s else .refuse .badOperand

def execReadDropList (s : State) : Result := .next (s.takeRequest 0x53 readDropList)

end Sys2Proof.Machine
end

