-- ==== Sys2Proof/Machine/ShuttleRequests.lean ====
section
/-! DEFINITION. The requests on shuttles (R72, R89). -/

namespace Sys2Proof.Machine

/-- The command mark of READ SHUTTLE (R182). -/
def Shuttle.markField (r : Shuttle) : Nat :=
  match r.command with
  | some c => c.mark.code
  | none => 0

/-- The answer of READ SHUTTLE (R72, R182). -/
def Shuttle.answer (r : Shuttle) : Answer :=
  { a0 := word (r.state.code * 8192 + r.silence * 2048 + r.markField * 512 + r.faultCode.toNat)
    a1 := binCell r.carried
    a2 := bytePair (byteOrNone (r.order.map (·.val))) (byteOrNone (r.command.map fun c => c.motion.code))
    a3 := word r.position.code }

/-- A request on a shuttle named in P0. -/
def onShuttle (e : Aisle → State → Reply) : Evaluation := fun o s =>
  match index? 6 (o.cell 0) with
  | none => .refuse .badOperand
  | some a => e a s

def readShuttle : Evaluation := onShuttle fun a s => .answer .ok (s.shuttle a).answer s

def execReadShuttle (s : State) : Result := .next (s.takeRequest 0x2A readShuttle)

/-- Whether a shuttle is FAULTED or OFFLINE. -/
def State.stopped (s : State) (a : Aisle) : Bool :=
  decide ((s.shuttle a).state = .faulted) || decide ((s.shuttle a).state = .offline)

/-- Checks 2 to 4 of R89. -/
def reviveRefusal (s : State) (a : Aisle) : Option Code :=
  firstFailing
    [(s.stopped a, .wrongState),
     (!s.haltedOrder a, .wrongState),
     (s.aisleNormal a, .zoneLocked)]

def reviveShuttle : Evaluation := onShuttle fun a s =>
  match reviveRefusal s a with
  | some c => .refuse c
  | none => .wait (.reviveShuttle a) (s.setSlot a (some .hostRevival))

def execReviveShuttle (s : State) : Result := .next (s.takeRequest 0x2B reviveShuttle)

end Sys2Proof.Machine
end

