-- ==== Sys2Proof/Machine/StationRequests.lean ====
section
/-! DEFINITION. The requests on stations and the lane (Chapter 5 D to F). -/

namespace Sys2Proof.Machine

/-! ## OPEN STATION, CLOSE STATION, SET STATION (R101, R102) -/

/-- The state and remembered state of a station in an answer. -/
def StationState.answer (st : StationState) : Answer := { a0 := bytePair st.code (byteOrNone st.remembered) }

/-- The state OPEN STATION leaves (R101). -/
def StationState.afterOpen : StationState → StationState
  | .fireHeld _ => .fireHeld true
  | _ => .opened

/-- The state CLOSE STATION leaves (R101). -/
def StationState.afterClose : StationState → StationState
  | .fireHeld _ => .fireHeld false
  | _ => .closed

def openStation : Evaluation := atContext fun n _ s =>
  let st := (s.stationState n).afterOpen
  .answer .ok st.answer (s.setStationState n st).settle

def execOpenStation (s : State) : Result := .next (s.takeRequest 0x30 openStation)

/-- A station takes the state CLOSE STATION leaves; the return station's positions follow it (R101, R133). -/
def State.closeStation (n : StationNo) (s : State) : State :=
  let t := s.setStationState n (s.stationState n).afterClose
  if n = returnStation ∧ s.stationState n = .opened then t.closeReturn else t

def closeStation : Evaluation := atContext fun n _ s =>
  .answer .ok (s.stationState n).afterClose.answer (s.closeStation n)

def execCloseStation (s : State) : Result := .next (s.takeRequest 0x31 closeStation)

def setStation : Evaluation := atContext fun n o s =>
  match flag? (o.cell 0) with
  | none => .refuse .badOperand
  | some f =>
    .answer .ok { a0 := word (flagCode (s.supervised n)) } { s with tab.supervised := s.tab.supervised.set n f }

def execSetStation (s : State) : Result := .next (s.takeRequest 0x32 setStation)

/-! ## DISMISS (R103, R104) -/

/-- Checks 5 to 7 of R103, on the presented bin. -/
def dismissRefusal (s : State) (b : BinNo) (k : PickNo) : Option Code :=
  firstFailing
    [(decide (s.classOf b ≠ .view) || decide (s.pickedOutOf b = 0), .itemsOut),
     ((s.stationOut (pickStation k)).isNone, .outBusy),
     (decide (s.ou.quiet ≠ .quiet), .quiet)]

/-- The presented bin leaves for the out place under its STOW, and the queue advances (R104, R100). -/
def State.dismiss (e : OrderNo) (b : BinNo) (rest : List BinNo) (pr : Fin 4) (k : PickNo) (s : State) : State :=
  let s := s.placeOrder e (plainOrder .stow .host b (s.homeAisle b) pr .waitingLane none)
  let s := s.setPresentationQueue k rest
  let s := (s.setStationOut (pickStation k) (some b)).setPlace b (.stationOut (pickStation k))
  if rest = [] then s else s.latch .stationReady

def dismissPresented (pr : Fin 4) (k : PickNo) (s : State) : Reply :=
  match s.presentationQueue k with
  | [] => .refuse .notPresented
  | b :: rest =>
    match dismissRefusal s b k with
    | some c => .refuse c
    | none =>
      match s.freeEntry? with
      | none => .refuse .noOrderEntry
      | some e => .answer .ok { a0 := word e.val, a1 := binCell rest.head? } (s.dismiss e b rest pr k).settle

def dismiss : Evaluation := atContext fun n o s =>
  match priority? (o.cell 0), asPick? n with
  | none, _ => .refuse .badOperand
  | some _, none => .refuse .wrongState
  | some pr, some k => if s.heldStation n then .refuse .zoneLocked else dismissPresented pr k s

def execDismiss (s : State) : Result := .next (s.takeRequest 0x33 dismiss)

/-! ## RECLAIM PLACE (R105) -/

/-- The places RECLAIM PLACE names. -/
inductive Reclaimed where
  | portOut (a : Aisle)
  | portIn (a : Aisle)
  | stationOut (n : StationNo)
  deriving DecidableEq, Repr

/-- The place of a RECLAIM PLACE, absent where the kind or the number is out of range. -/
def Operands.reclaimed? (o : Operands) : Option Reclaimed :=
  match o.cell 0 with
  | 0 => (index? 6 (o.cell 1)).map .portOut
  | 1 => (index? 6 (o.cell 1)).map .portIn
  | 2 => (index? 5 (o.cell 1)).map .stationOut
  | _ => none

/-- The bin of the place. -/
def State.reclaimedBin? (s : State) : Reclaimed → Option BinNo
  | .portOut a => s.outPlace a
  | .portIn a => s.inPlace a
  | .stationOut n => s.stationOut n

/-- The holder of a bin, none for a bin without a record. -/
def State.holderOf (s : State) (b : BinNo) : Option OrderNo :=
  match s.binRec? b with
  | some r => r.holder
  | none => none

/-- Checks 6 to 9 of R105, for PORT_OUT. -/
def reclaimOutRefusal (s : State) (b : BinNo) (k : PickNo) : Option Code :=
  firstFailing
    [(s.classAdmitted b (pickStation k), .access),
     (decide (s.stationState (pickStation k) = .opened), .stationClosed),
     (decide (s.stationLoad k < 4), .stationFull),
     (decide (s.ou.quiet = .active), .quiet)]

/-- Checks 3 and 4 of R105. -/
def reclaimRefusal (s : State) (b : BinNo) : Option Code :=
  firstFailing [((s.holderOf b).isNone, .inUse), (s.hallNormal, .zoneLocked)]

/-- The answer of RECLAIM PLACE. -/
def reclaimAnswer (e : OrderNo) (b : BinNo) : Answer := { a0 := word e.val, a1 := word b.val }

/-- The FETCH of a bin left in a port OUT place (R105). -/
def reclaimOut (b : BinNo) (pr : Fin 4) (o : Operands) (s : State) : Reply :=
  match o.station?, o.pick? with
  | none, _ => .refuse .badOperand
  | some _, none => .refuse .wrongState
  | some _, some k =>
    match reclaimOutRefusal s b k with
    | some c => .refuse c
    | none =>
      match s.freeEntry? with
      | none => .refuse .noOrderEntry
      | some e =>
        .answer .ok (reclaimAnswer e b)
          ((s.placeOrder e (plainOrder .fetch .host b (s.homeAisle b) pr .waitingLane (some (.pick k)))).reserve k).settle

/-- The STOW of a bin left in a port IN place or a station out place (R105). -/
def reclaimStow (b : BinNo) (pr : Fin 4) (st : RunStage) (s : State) : Reply :=
  if s.ou.quiet = .quiet then .refuse .quiet
  else
    match s.freeEntry? with
    | none => .refuse .noOrderEntry
    | some e =>
      .answer .ok (reclaimAnswer e b) (s.placeOrder e (plainOrder .stow .host b (s.homeAisle b) pr st none)).settle

/-- Whether a RECLAIM PLACE is of kind PORT_OUT with a CONTEXT above 4 (R166). -/
def Operands.reclaimContextBad (o : Operands) : Bool := decide (o.cell 0 = 0) && o.station?.isNone

def reclaimPlace : Evaluation := fun o s =>
  if o.reclaimContextBad then .refuse .badOperand
  else
    match o.reclaimed?, priority? (o.cell 2) with
    | none, _ => .refuse .badOperand
    | some _, none => .refuse .badOperand
    | some pl, some pr =>
      match s.reclaimedBin? pl with
      | none => .refuse .noRecord
      | some b =>
        match reclaimRefusal s b with
        | some c => .refuse c
        | none =>
          match pl with
          | .portOut _ => reclaimOut b pr o s
          | .portIn _ => reclaimStow b pr .queued s
          | .stationOut _ => reclaimStow b pr .waitingLane s

def execReclaimPlace (s : State) : Result := .next (s.takeRequest 0x34 reclaimPlace)

/-! ## READ STATION and READ LANE (R107) -/

/-- The bin at an index of a queue, or the mark for none. -/
def queueCell (q : List BinNo) (k : Nat) : Word := binCell q[k]?

/-- The answer of READ STATION (R107, R182). -/
def State.stationAnswer (s : State) (n : StationNo) : Answer :=
  match asPick? n with
  | some k =>
    let q := s.presentationQueue k
    { a0 := queueCell q 0, a1 := queueCell q 1, a2 := queueCell q 2, a3 := queueCell q 3 }
  | none =>
    { a0 := binCell (s.stationOut n), a1 := binCell s.su.intake.bin?, a2 := binCell s.su.hold.bin?
      a3 := bytePair s.su.intake.code s.su.hold.code }

def readStation : Evaluation := fun o s =>
  match index? 5 (o.cell 0) with
  | none => .refuse .badOperand
  | some n => .answer .ok (s.stationAnswer n) s

def execReadStation (s : State) : Result := .next (s.takeRequest 0x35 readStation)

/-- The holder of the bin in a place, or the mark for none. -/
def State.holderCell (s : State) (b : Option BinNo) : Word :=
  wordOrNone ((b.bind s.holderOf).map (·.val))

/-- The answer of READ LANE for a port (R107, R182). -/
def State.portAnswer (s : State) (a : Aisle) : Answer :=
  { a0 := binCell (s.outPlace a), a1 := s.holderCell (s.outPlace a)
    a2 := binCell (s.inPlace a), a3 := s.holderCell (s.inPlace a) }

/-- The state of a crossing in READ LANE (R182). -/
def CrossState.code : CrossState → Nat
  | .running _ => 1
  | .stopped => 2

/-- The answer of READ LANE for the lane (R107, R182); marks for none where no crossing is in progress. -/
def State.laneAnswer (s : State) : Answer :=
  match s.lc.crossing with
  | some c =>
    { a0 := bytePair c.source.code c.dest.code, a1 := word c.bin.val
      a2 := bytePair c.order.val c.state.code, a3 := word s.lc.pointer.val }
  | none => { a0 := noneWord, a1 := noneWord, a2 := noneWord, a3 := word s.lc.pointer.val }

def readLane : Evaluation := fun o s =>
  if o.cell 0 = 0xFFFF then .answer .ok s.laneAnswer s
  else
    match index? 6 (o.cell 0) with
    | none => .refuse .badOperand
    | some a => .answer .ok (s.portAnswer a) s

def execReadLane (s : State) : Result := .next (s.takeRequest 0x36 readLane)

end Sys2Proof.Machine
end

