-- ==== Sys2Proof/Machine/ZoneRequests.lean ====
section
/-! DEFINITION. The requests on zones (R157, R158) and on the fault record (R176). -/

namespace Sys2Proof.Machine

/-! ## SET DEADLINE and READ ZONE -/

def setDeadline : Evaluation := fun o s =>
  match index? 4 (o.cell 0) with
  | none => .refuse .badOperand
  | some z =>
    if 10 ≤ o.cell 1 ∧ o.cell 1 ≤ 240 then
      if s.zoneNormal z then
        .answer .ok { a0 := word s.tab.deadlines[z] } { s with tab.deadlines := s.tab.deadlines.set z (o.cell 1) }
      else .refuse .wrongState
    else .refuse .badOperand

def execSetDeadline (s : State) : Result := .next (s.takeRequest 0x60 setDeadline)

/-- The remaining deadline of a zone, absent outside ALARM (R158). -/
def ZoneState.remaining? : ZoneState → Option Nat
  | .alarm n => some n
  | _ => none

/-- Whether a crossing is kept STOPPED. -/
def State.crossingStopped (s : State) : Bool :=
  match s.lc.crossing with
  | some c => decide (c.state = .stopped)
  | none => false

/-- A3 of READ ZONE: what keeps the zone from sealing (R158, R182). For zone 3, bit 0 shows the condition of R147 in every zone
state, so that a command marked SENT that only waits is not shown (log entry 31). -/
def State.zoneObstacles (s : State) (z : ZoneNo) : Nat :=
  if z = frontHall then flagCode s.crossingStopped * 2 + flagCode (!s.sealable z)
  else ((shuttlesOf z).filter fun a => !(s.shuttle a).state.atRest).length

def State.zoneAnswer (s : State) (z : ZoneNo) : Answer :=
  { a0 := bytePair (s.zoneState z).code (flagCode (s.zone z).line * 2 + flagCode (s.zone z).clr)
    a1 := word s.tab.deadlines[z]
    a2 := wordOrNone (s.zoneState z).remaining?
    a3 := word (s.zoneObstacles z) }

def readZone : Evaluation := fun o s =>
  match index? 4 (o.cell 0) with
  | none => .refuse .badOperand
  | some z => .answer .ok (s.zoneAnswer z) s

def execReadZone (s : State) : Result := .next (s.takeRequest 0x61 readZone)

/-! ## READ FAULT and CLEAR FAULT -/

/-- The presence bits 12–8 of a capture (R182). -/
def Capture.presence (c : Capture) : Nat :=
  flagCode c.shuttle.isSome * 16 + flagCode c.order.isSome * 8 + flagCode c.bin.isSome * 4 + flagCode c.stage.isSome * 2
    + flagCode c.code.isSome

/-- The answer of READ FAULT (R176, R182); the kind of an EMPTY record is a free value (log entry 6). -/
def faultAnswer : Option FaultRecord → Answer
  | some f =>
    { a0 := word (32768 + flagCode f.further * 16384 + f.first.presence * 256 + f.first.kind.code)
      a1 := bytePair (byteOrNone (f.first.shuttle.map (·.val))) (byteOrNone (f.first.order.map (·.val)))
      a2 := wordOrNone (f.first.bin.map (·.val))
      a3 := bytePair (byteOrNone (f.first.stage.map RunStage.code)) (byteOrNone (f.first.code.map (·.toNat))) }
  | none =>
    { a0 := word Config.absentFaultKind.toNat, a1 := noneWord, a2 := noneWord, a3 := noneWord }

def readFault : Evaluation := fun _ s => .answer .ok (faultAnswer s.au.fault) s

def execReadFault (s : State) : Result := .next (s.takeRequest 0x62 readFault)

def clearFault : Evaluation := fun _ s => .answer .ok (faultAnswer s.au.fault) { s with au.fault := none }

def execClearFault (s : State) : Result := .next (s.takeRequest 0x63 clearFault)

end Sys2Proof.Machine
end

