-- ==== Sys2Proof/Machine/WindowEvents.lean ====
section
/-! DEFINITION. The window accesses that are no request of their own (R162 to R164, R172, R174, R150), and the request table
by code (R182). -/

namespace Sys2Proof.Machine

/-! ## The request table (R182) -/

/-- The evaluation of a defined request code, absent for any other value (R182). -/
def evaluationOf? : Nat → Option Evaluation
  | 0x01 => some enrolBin
  | 0x02 => some retireBin
  | 0x03 => some setPlace
  | 0x04 => some readBin
  | 0x05 => some defineSegment
  | 0x06 => some readSegment
  | 0x07 => some readChanged
  | 0x08 => some clearChanged
  | 0x09 => some setDay
  | 0x0A => some setCategory
  | 0x0B => some readCategory
  | 0x10 => some enrolItem
  | 0x11 => some retireItem
  | 0x12 => some readItem
  | 0x13 => some enrolPatron
  | 0x14 => some retirePatron
  | 0x15 => some setPatronBlock
  | 0x16 => some readPatron
  | 0x17 => some readLoans
  | 0x20 => some fetch
  | 0x21 => some collect
  | 0x22 => some readOrder
  | 0x23 => some cancelOrder
  | 0x24 => some resumeOrder
  | 0x25 => some audit
  | 0x26 => some cancelAudit
  | 0x27 => some auditBin
  | 0x28 => some quiesce
  | 0x29 => some wake
  | 0x2A => some readShuttle
  | 0x2B => some reviveShuttle
  | 0x30 => some openStation
  | 0x31 => some closeStation
  | 0x32 => some setStation
  | 0x33 => some dismiss
  | 0x34 => some reclaimPlace
  | 0x35 => some readStation
  | 0x36 => some readLane
  | 0x40 => some pick
  | 0x41 => some putBack
  | 0x42 => some charge
  | 0x43 => some renew
  | 0x44 => some declareLost
  | 0x45 => some placeHold
  | 0x46 => some cancelHold
  | 0x50 => some returnItem
  | 0x51 => some placeDropped
  | 0x52 => some closePosition
  | 0x53 => some readDropList
  | 0x60 => some setDeadline
  | 0x61 => some readZone
  | 0x62 => some readFault
  | 0x63 => some clearFault
  | 0x70 => some resetController
  | _ => none

/-- The evaluation of an undefined request code: refused with BAD_OPERAND, and nothing else changes (R163). -/
def undefinedCode : Evaluation := fun _ _ => .refuse .badOperand

/-- A write of any value to REQUEST (R163, R164). -/
def State.writeRequest (v : Word) (s : State) : State :=
  s.takeRequest v ((evaluationOf? v.toNat).getD undefinedCode)

/-- A REQUEST write of an undefined code; a defined code given here is the request it names (log entry 20). -/
def execUndefinedRequest (v : Word) (s : State) : Result := .next (s.writeRequest v)

/-- A REQUEST write while BUSY is set; with BUSY clear it is an ordinary REQUEST write (log entry 20). -/
def execRequestCollision (v : Word) (s : State) : Result :=
  .next (if s.windowFree then s.writeRequest v else s.collide)

/-! ## The other cells -/

def execReleaseWrite (v : Word) (s : State) : Result := .next (s.writeRelease v)

def execCauseWrite (v : Word) (s : State) : Result := .next (s.writeCause v)

def execEnableWrite (v : Word) (s : State) : Result := .next (s.writeEnable v)

def execLevelsWrite (v : Word) (s : State) : Result := .next (s.writeLevels v)

def execStateRead (s : State) : Result := .next s.readState

/-- A write to a cell by its select: CONTEXT and P0–P5 are stored, STATE, A0–A3 and the view cells take nothing, each breaking
a release sequence, and a select of 24–31 does nothing (R162). REQUEST, CAUSE, ENABLE, LEVELS and RELEASE have rows of their
own and act as those do (log entry 20). -/
def State.writeCell (cell : BitVec 5) (v : Word) (s : State) : State :=
  match cell.toNat with
  | 0 => s.writeRequest v
  | 2 => s.writeContext v
  | 3 => s.writeParameter 0 v
  | 4 => s.writeParameter 1 v
  | 5 => s.writeParameter 2 v
  | 6 => s.writeParameter 3 v
  | 7 => s.writeParameter 4 v
  | 8 => s.writeParameter 5 v
  | 13 => s.writeCause v
  | 14 => s.writeEnable v
  | 15 => s.writeLevels v
  | 16 => s.writeRelease v
  | n => if n < 24 then s.breakRelease else s

def execWindowCellWrite (cell : BitVec 5) (v : Word) (s : State) : Result := .next (s.writeCell cell v)

end Sys2Proof.Machine
end

