-- ==== Sys2Proof/Machine/Dispatch.lean ====
section
/-! DEFINITION. One arm per command of the table, each one direct call of its meaning. -/

namespace Sys2Proof.Machine

def exec (i : Instr) (s : State) : Host.Outcome State Fault Refusal :=
  match i with
  | .enrolBin => Sys2Proof.Machine.execEnrolBin s
  | .retireBin => Sys2Proof.Machine.execRetireBin s
  | .setPlace => Sys2Proof.Machine.execSetPlace s
  | .readBin => Sys2Proof.Machine.execReadBin s
  | .defineSegment => Sys2Proof.Machine.execDefineSegment s
  | .readSegment => Sys2Proof.Machine.execReadSegment s
  | .readChanged => Sys2Proof.Machine.execReadChanged s
  | .clearChanged => Sys2Proof.Machine.execClearChanged s
  | .setDay => Sys2Proof.Machine.execSetDay s
  | .setCategory => Sys2Proof.Machine.execSetCategory s
  | .readCategory => Sys2Proof.Machine.execReadCategory s
  | .enrolItem => Sys2Proof.Machine.execEnrolItem s
  | .retireItem => Sys2Proof.Machine.execRetireItem s
  | .readItem => Sys2Proof.Machine.execReadItem s
  | .enrolPatron => Sys2Proof.Machine.execEnrolPatron s
  | .retirePatron => Sys2Proof.Machine.execRetirePatron s
  | .setPatronBlock => Sys2Proof.Machine.execSetPatronBlock s
  | .readPatron => Sys2Proof.Machine.execReadPatron s
  | .readLoans => Sys2Proof.Machine.execReadLoans s
  | .fetch => Sys2Proof.Machine.execFetch s
  | .collect => Sys2Proof.Machine.execCollect s
  | .readOrder => Sys2Proof.Machine.execReadOrder s
  | .cancelOrder => Sys2Proof.Machine.execCancelOrder s
  | .resumeOrder => Sys2Proof.Machine.execResumeOrder s
  | .audit => Sys2Proof.Machine.execAudit s
  | .cancelAudit => Sys2Proof.Machine.execCancelAudit s
  | .auditBin => Sys2Proof.Machine.execAuditBin s
  | .quiesce => Sys2Proof.Machine.execQuiesce s
  | .wake => Sys2Proof.Machine.execWake s
  | .readShuttle => Sys2Proof.Machine.execReadShuttle s
  | .reviveShuttle => Sys2Proof.Machine.execReviveShuttle s
  | .openStation => Sys2Proof.Machine.execOpenStation s
  | .closeStation => Sys2Proof.Machine.execCloseStation s
  | .setStation => Sys2Proof.Machine.execSetStation s
  | .dismiss => Sys2Proof.Machine.execDismiss s
  | .reclaimPlace => Sys2Proof.Machine.execReclaimPlace s
  | .readStation => Sys2Proof.Machine.execReadStation s
  | .readLane => Sys2Proof.Machine.execReadLane s
  | .pick => Sys2Proof.Machine.execPick s
  | .putBack => Sys2Proof.Machine.execPutBack s
  | .charge => Sys2Proof.Machine.execCharge s
  | .renew => Sys2Proof.Machine.execRenew s
  | .declareLost => Sys2Proof.Machine.execDeclareLost s
  | .placeHold => Sys2Proof.Machine.execPlaceHold s
  | .cancelHold => Sys2Proof.Machine.execCancelHold s
  | .returnItem => Sys2Proof.Machine.execReturnItem s
  | .placeDropped => Sys2Proof.Machine.execPlaceDropped s
  | .closePosition => Sys2Proof.Machine.execClosePosition s
  | .readDropList => Sys2Proof.Machine.execReadDropList s
  | .setDeadline => Sys2Proof.Machine.execSetDeadline s
  | .readZone => Sys2Proof.Machine.execReadZone s
  | .readFault => Sys2Proof.Machine.execReadFault s
  | .clearFault => Sys2Proof.Machine.execClearFault s
  | .resetController => Sys2Proof.Machine.execResetController s
  | .undefinedRequest value => Sys2Proof.Machine.execUndefinedRequest value s
  | .requestCollision value => Sys2Proof.Machine.execRequestCollision value s
  | .releaseWrite value => Sys2Proof.Machine.execReleaseWrite value s
  | .causeWrite value => Sys2Proof.Machine.execCauseWrite value s
  | .enableWrite value => Sys2Proof.Machine.execEnableWrite value s
  | .levelsWrite value => Sys2Proof.Machine.execLevelsWrite value s
  | .stateRead => Sys2Proof.Machine.execStateRead s
  | .windowCellWrite cell value => Sys2Proof.Machine.execWindowCellWrite cell value s
  | .resetAsserted memory => Sys2Proof.Machine.execResetAsserted memory s
  | .startUp => Sys2Proof.Machine.execStartUp s
  | .alarmLineChange zone active => Sys2Proof.Machine.execAlarmLineChange zone active s
  | .zoneDeadlineExpiry zone => Sys2Proof.Machine.execZoneDeadlineExpiry zone s
  | .revivalRetryDue shuttle => Sys2Proof.Machine.execRevivalRetryDue shuttle s
  | .offlinePollDue shuttle => Sys2Proof.Machine.execOfflinePollDue shuttle s
  | .linkGrant => Sys2Proof.Machine.execLinkGrant s
  | .answerReceived chars => Sys2Proof.Machine.execAnswerReceived chars s
  | .answerInvalid => Sys2Proof.Machine.execAnswerInvalid s
  | .replyWindowExpiry => Sys2Proof.Machine.execReplyWindowExpiry s
  | .motionDeadlineExpiry shuttle => Sys2Proof.Machine.execMotionDeadlineExpiry shuttle s
  | .auditCursorStep => Sys2Proof.Machine.execAuditCursorStep s
  | .ldone => Sys2Proof.Machine.execLdone s
  | .lflt => Sys2Proof.Machine.execLflt s
  | .crossingDeadlineExpiry => Sys2Proof.Machine.execCrossingDeadlineExpiry s
  | .receivedCharacterDiscarded char => Sys2Proof.Machine.execReceivedCharacterDiscarded char s

end Sys2Proof.Machine
end

