-- ==== Sys2Proof/Safety.lean ====
section
/-! DEFINITION. What a state of the 612 always satisfies: the canonical form and the bounds of the retained tables, the laws of
the wing about the fire panel's lines, the drop list and the circulation counts, and the standing of the window; and the words
in which the statements speak of a request's codes, checks and end. -/

namespace Sys2Proof.Machine

/-- The keyed tables are in canonical form, with every key in its range, and within their capacities (R11, R23, R29). -/
def Tables.wf (t : Tables) : Bool :=
  tableSorted t.bins && tableKeysIn 0 2047 t.bins
    && tableSorted t.items && tableKeysIn 1 Config.maxTag t.items && decide (t.items.length ≤ Config.itemCapacity)
    && tableSorted t.patrons && tableKeysIn 1 Config.maxPatron t.patrons
    && decide (t.patrons.length ≤ Config.patronCapacity)

/-- Between commands the retained memory is whole: its tables are well formed and the pending-update record is clear (R20; log
entry 3). -/
def State.memoryWhole (s : State) : Bool := s.tab.wf && s.pendingUpdate.isNone

/-- R142: a zone's CLR line is asserted exactly while the zone is SEALED. -/
def State.clearLaw (s : State) : Bool :=
  zones.all fun z => (s.zone z).clr == decide (s.zoneState z = .sealed)

/-- R97: LSTOP is asserted while zone 3 is ALARM or SEALED, and released in NORMAL and RECOVERY. -/
def State.stopLaw (s : State) : Bool :=
  s.lc.lstop == (s.zoneAlarm frontHall || decide (s.zoneState frontHall = .sealed))

/-- No condition cause has a latch (R171): only the bits of the event causes are ever set. -/
def State.latchLaw (s : State) : Bool := s.au.latches &&& ~~~eventMask == 0

/-- During a power-on reset BUSY is set (R169). -/
def State.windowLaw (s : State) : Bool := decide (s.phase = .running) || s.win.busy

/-- What every state holds that the reset state leads to. -/
def State.safe (s : State) : Bool := s.memoryWhole && s.clearLaw && s.stopLaw && s.latchLaw && s.windowLaw

/-! ## The laws of the wing that the statements name -/

/-- R136: the drop list names the DROPPED items, each once, and nothing else. -/
def State.DropLaw (s : State) : Prop :=
  s.dropList.Nodup ∧ ∀ t, t ∈ s.dropList ↔ ∃ i, s.item? t = some i ∧ i.state = .dropped

/-- R35, R141, R157: the settings of the category table and of the zones lie in their ranges, and the day is a day number. -/
def State.SettingsLaw (s : State) : Prop :=
  (∀ c : Category, (s.categoryRow c).limit ≤ 63 ∧ (s.categoryRow c).maxDays ≤ 180)
    ∧ (∀ z : ZoneNo, 10 ≤ s.tab.deadlines[z] ∧ s.tab.deadlines[z] ≤ 240) ∧ s.tab.day ≤ Config.maxDay

/-- The number of items whose state names a bin as theirs by a test. -/
def countItems (p : ItemState → Bool) : Table Item → Nat
  | [] => 0
  | (_, i) :: t => (if p i.state then 1 else 0) + countItems p t

/-- SHELVED or HELD in a bin (R24). -/
def ItemState.inBin (b : BinNo) : ItemState → Bool
  | .shelved c => c == b
  | .held c => c == b
  | _ => false

/-- PICKED out of a bin (R24). -/
def ItemState.pickedFrom (b : BinNo) : ItemState → Bool
  | .picked _ c => c == b
  | _ => false

/-- R24: each bin's item count is the number of SHELVED and HELD items that name it, and its picked-out count the number of PICKED
items whose origin it is; a bin number without a record is named by no such item. -/
def State.CountLaw (s : State) : Prop :=
  ∀ b : BinNo,
    match s.binRec? b with
    | some r => r.itemCount = countItems (ItemState.inBin b) s.tab.items
        ∧ r.pickedOut = countItems (ItemState.pickedFrom b) s.tab.items
    | none => countItems (ItemState.inBin b) s.tab.items = 0 ∧ countItems (ItemState.pickedFrom b) s.tab.items = 0

/-! ## Requests in the statements -/

/-- The code of a request row (R182). -/
def requestCode? : Instr → Option Nat
  | .enrolBin => some 0x01
  | .retireBin => some 0x02
  | .setPlace => some 0x03
  | .readBin => some 0x04
  | .defineSegment => some 0x05
  | .readSegment => some 0x06
  | .readChanged => some 0x07
  | .clearChanged => some 0x08
  | .setDay => some 0x09
  | .setCategory => some 0x0A
  | .readCategory => some 0x0B
  | .enrolItem => some 0x10
  | .retireItem => some 0x11
  | .readItem => some 0x12
  | .enrolPatron => some 0x13
  | .retirePatron => some 0x14
  | .setPatronBlock => some 0x15
  | .readPatron => some 0x16
  | .readLoans => some 0x17
  | .fetch => some 0x20
  | .collect => some 0x21
  | .readOrder => some 0x22
  | .cancelOrder => some 0x23
  | .resumeOrder => some 0x24
  | .audit => some 0x25
  | .cancelAudit => some 0x26
  | .auditBin => some 0x27
  | .quiesce => some 0x28
  | .wake => some 0x29
  | .readShuttle => some 0x2A
  | .reviveShuttle => some 0x2B
  | .openStation => some 0x30
  | .closeStation => some 0x31
  | .setStation => some 0x32
  | .dismiss => some 0x33
  | .reclaimPlace => some 0x34
  | .readStation => some 0x35
  | .readLane => some 0x36
  | .pick => some 0x40
  | .putBack => some 0x41
  | .charge => some 0x42
  | .renew => some 0x43
  | .declareLost => some 0x44
  | .placeHold => some 0x45
  | .cancelHold => some 0x46
  | .returnItem => some 0x50
  | .placeDropped => some 0x51
  | .closePosition => some 0x52
  | .readDropList => some 0x53
  | .setDeadline => some 0x60
  | .readZone => some 0x61
  | .readFault => some 0x62
  | .clearFault => some 0x63
  | .resetController => some 0x70
  | _ => none

/-- Whether a completion code refuses a request, so that nothing outside the window changes (R163). -/
def Code.refuses : Code → Bool
  | .ok => false
  | .cancelTaken => false
  | .zoneReleased => false
  | .shuttleFaulted => false
  | .starting => false
  | _ => true

/-- The window once a request that was taken has ended: its code stands in REQUEST, BUSY is clear, and the completion code and the
answer are there (R163, R165). -/
def State.requestDone (code : Word) (c : Code) (a : Answer) (s : State) : State :=
  { s with win := { s.win with request := code, busy := false, code := c, a := a, release := .none, waiting := none } }

/-- A request is judged by its checks in order: the first that fails refuses it, and when all pass the state is the one given. -/
def Judged (s : State) (i : Instr) (code : Word) (checks : List (Bool × Code)) (t : State) : Prop :=
  (firstFailing checks = none → exec i s = .next t)
    ∧ ∀ c, firstFailing checks = some c → exec i s = .next (s.requestDone code c {})

/-- The group of a cause (R171). -/
def Cause.group : Cause → Group
  | .zoneAlarm => .a
  | .zoneSealed => .a
  | .faultCaptured => .b
  | .orderFinished => .b
  | .stationReady => .c
  | .returnWaiting => .c
  | .intakeExhausted => .c
  | .zoneRecovered => .d
  | .auditDone => .d
  | .quietEntered => .d
  | .woken => .d

end Sys2Proof.Machine
end

