-- ==== Sys2Proof/WellFormed.lean ====
section
/-! DEFINITION. Which commands are the ones their rows describe: an undefined request code that is undefined, a cell write with
no row of its own, an answer that is whole and whose check is correct. exec gives a meaning to every other term as well (log
entry 20). -/

namespace Sys2Proof

/-- The defined request codes (R182). -/
def definedCodes : List Nat :=
  [0x01, 0x02, 0x03, 0x04, 0x05, 0x06, 0x07, 0x08, 0x09, 0x0A, 0x0B] ++
  [0x10, 0x11, 0x12, 0x13, 0x14, 0x15, 0x16, 0x17] ++
  [0x20, 0x21, 0x22, 0x23, 0x24, 0x25, 0x26, 0x27, 0x28, 0x29, 0x2A, 0x2B] ++
  [0x30, 0x31, 0x32, 0x33, 0x34, 0x35, 0x36] ++
  [0x40, 0x41, 0x42, 0x43, 0x44, 0x45, 0x46] ++
  [0x50, 0x51, 0x52, 0x53] ++ [0x60, 0x61, 0x62, 0x63] ++ [0x70]

/-- Whether a cell select has rows of its own: REQUEST, CAUSE, ENABLE, LEVELS and RELEASE (R161). -/
def hasOwnRow (cell : BitVec 5) : Bool := [0, 13, 14, 15, 16].contains cell.toNat

/-- A data character as a shuttle controller sends it: mark bit 0, stop bit marking (R73). -/
def LinkChar.isData (c : LinkChar) : Bool := !c.mark && c.stopMarking

/-- The number of characters of an answer by its code (R184): ACK, REFUSED and STATUS. -/
def answerLength : Nat → Option Nat
  | 0x80 => some 2 | 0x81 => some 3 | 0x90 => some 9 | _ => none

/-- The code of received characters. -/
def firstByte : List LinkChar → Nat
  | [] => 0
  | c :: _ => c.data.toNat

/-- The sum of the data bits of received characters. -/
def byteSum : List LinkChar → Nat
  | [] => 0
  | c :: rest => c.data.toNat + byteSum rest

/-- Characters that make a whole answer with a correct check (R75, R184). -/
def wholeAnswer (chars : List LinkChar) : Bool :=
  chars.all LinkChar.isData && decide (answerLength (firstByte chars) = some chars.length) && byteSum chars % 256 == 0

/-- A command is the one its row describes. -/
def Instr.wellFormed : Instr → Bool
  | .undefinedRequest v => !definedCodes.contains v.toNat
  | .windowCellWrite cell _ => !hasOwnRow cell
  | .answerReceived chars => wholeAnswer chars
  | _ => true

end Sys2Proof
end

