-- ==== Sys2Proof/Certificates/Slice0/Obligations.lean ====
section
/-! DEFINITION. The statements for the provers. -/

open Sys2Proof Sys2Proof.Machine

/-! ## The bin operand (R4, R166, R167, R181) -/

/-- A bin operand is resolved by its form and then checked against the segment table: the BIN form takes bits 11–0 of P0, the ITEM
form the bin of a SHELVED or HELD item, the SEGMENT+INDEX form the bin at an index of a valid segment, and the STATION form the
presented bin of the CONTEXT station. A request whose operand fails is refused with the code that fails it, at a CONTEXT of 0–4 where
it acts at a station. -/
def Obligations.BinOperandResolvesByForm : Prop :=
  (∀ (s : State) (o : Operands),
      (o.form = 0 → s.binOperand o = s.checkNumber o.binField)
      ∧ (o.form = 1 → ∀ (i : Item) (b : BinNo), validTag o.itemField = true → s.item? o.itemField = some i →
          (i.state = .shelved b ∨ i.state = .held b → s.binOperand o = s.checkNumber b.val)
          ∧ ((∀ c : BinNo, i.state ≠ .shelved c ∧ i.state ≠ .held c) → s.binOperand o = .error .wrongState))
      ∧ (o.form = 1 → validTag o.itemField = true → s.item? o.itemField = none → s.binOperand o = .error .noRecord)
      ∧ (o.form = 1 → validTag o.itemField = false → s.binOperand o = .error .badOperand)
      ∧ (o.form = 2 → ∀ g : SegNo, o.lowByte 0 = g.val → o.lowByte 1 ≤ 63 →
          ((s.segment g).valid = true → o.lowByte 1 < (s.segment g).length →
            s.binOperand o = s.checkNumber
              (g.val * 64 + (if (s.segment g).direction = .up then o.lowByte 1 else 64 - (s.segment g).length + o.lowByte 1)))
          ∧ ((s.segment g).valid = false ∨ (s.segment g).length ≤ o.lowByte 1 → s.binOperand o = .error .length))
      ∧ (o.form = 2 → 31 < o.lowByte 0 ∨ 63 < o.lowByte 1 → s.binOperand o = .error .badOperand)
      ∧ (o.form = 3 → ∀ k : PickNo, o.station = k.val →
          (∀ b, s.presented? k = some b → s.binOperand o = s.checkNumber b.val)
          ∧ (s.presented? k = none → s.binOperand o = .error .notPresented))
      ∧ (o.form = 3 → o.station = 4 → s.binOperand o = .error .notPresented)
      ∧ (o.form = 3 → 4 < o.station → s.binOperand o = .error .badOperand)
      ∧ (3 < o.form → s.binOperand o = .error .badOperand))
  ∧ (∀ (s : State) (c : Code), s.windowFree = true →
      (s.binOperand s.operands = .error c → exec .enrolBin s = .next (s.requestDone 0x01 c {}))
      ∧ (s.enrolledOperand s.operands = .error c →
          exec .retireBin s = .next (s.requestDone 0x02 c {}) ∧ exec .setPlace s = .next (s.requestDone 0x03 c {})
          ∧ exec .readBin s = .next (s.requestDone 0x04 c {}) ∧ exec .auditBin s = .next (s.requestDone 0x27 c {})
          ∧ (s.operands.station ≤ 4 → exec .fetch s = .next (s.requestDone 0x20 c {}))))

/-- R2 and R4: the checks of a bin number (above 2047; a segment that is not valid; an offset outside the valid offsets of its direction;
and, but for ENROL BIN, no record), and the home position of an offset: up from the base in an UP segment, down from it in a DOWN
segment, in the home range, whatever the length. -/
def Obligations.BinNumberMapsToHomePosition : Prop :=
  (∀ (s : State) (o : Operands),
      (∀ n, 2047 < n → s.checkNumber n = .error .badOperand)
      ∧ (∀ b : BinNo, (s.segment (segOf b)).valid = false → s.checkNumber b.val = .error .length)
      ∧ (∀ b : BinNo, (s.segment (segOf b)).valid = true → (s.segment (segOf b)).direction = .up →
          s.checkNumber b.val = if b.val % 64 < (s.segment (segOf b)).length then .ok b else .error .length)
      ∧ (∀ b : BinNo, (s.segment (segOf b)).valid = true → (s.segment (segOf b)).direction = .down →
          s.checkNumber b.val = if 64 - (s.segment (segOf b)).length ≤ b.val % 64 then .ok b else .error .length)
      ∧ (∀ c, s.binOperand o = .error c → s.enrolledOperand o = .error c)
      ∧ (∀ b, s.binOperand o = .ok b → s.binRec? b = none → s.enrolledOperand o = .error .noRecord)
      ∧ (∀ b r, s.binOperand o = .ok b → s.binRec? b = some r → s.enrolledOperand o = .ok (b, r)))
  ∧ (∀ (d : Segment) (f : Nat), f ≤ 63 → 1 ≤ d.length → d.length ≤ 64 →
      (d.direction = .up → d.homePosition f = d.base + f ∧ d.lowest = d.base ∧ d.highest = d.base + d.length - 1
        ∧ (d.holdsOffset f = true ↔ f ≤ d.length - 1))
      ∧ (d.direction = .down → d.length ≤ d.base + 1 → (d.homePosition f = d.base - (63 - f)
        ∧ d.lowest = d.base - (d.length - 1) ∧ d.highest = d.base ∧ (d.holdsOffset f = true ↔ 64 - d.length ≤ f)))
      ∧ (d.length ≤ d.base + 1 ∨ d.direction = .up → d.holdsOffset f = true →
          d.lowest ≤ d.homePosition f ∧ d.homePosition f ≤ d.highest)
      ∧ ∀ l, { d with length := l }.homePosition f = d.homePosition f)

/-! ## Segments and bins (Chapter 1) -/

/-- ENROL BIN, RETIRE BIN and SET PLACE: each is judged by the checks of its rule; the record is created, removed, or given its
target place, and nothing else of the wing changes but by the settling, which may take the bin into a pool. -/
def Obligations.BinRecordsAreCreatedRemovedAndPlaced : Prop :=
  ∀ (s : State), s.windowFree = true →
    (∀ b, s.binOperand s.operands = .ok b →
      Judged s .enrolBin 0x01
        [(decide (s.operands.cell 2 ≤ 2 ∧ 1 ≤ s.operands.cell 3 ∧ s.operands.cell 3 ≤ 24), .badOperand),
         ((s.binRec? b).isNone, .duplicate)]
        ((((s.storeRequest 0x01).putBin b
            { kind := (BinKind.ofCode (s.operands.cell 2)).getD .collection, capacity := s.operands.cell 3, itemCount := 0
              pickedOut := 0, place := .home, holder := none }).settle).endRequest .ok
          { a0 := word b.val, a1 := word (s.homeAisle b).val, a2 := word (s.homePosition b) }))
    ∧ (∀ b r, s.enrolledOperand s.operands = .ok (b, r) →
      Judged s .retireBin 0x02
        [(decide (r.place = .home ∧ r.itemCount = 0 ∧ r.pickedOut = 0 ∧ r.holder = none), .inUse)]
        ((s.eraseBin b).requestDone 0x02 .ok {})
      ∧ Judged s .setPlace 0x03
        [(decide (s.operands.cell 2 = 0 ∨ s.operands.cell 2 = 9), .badOperand),
         (decide (r.place = .unverified ∨ r.place = .missing), .wrongPlace),
         (r.holder.isNone, .inUse)]
        ((((s.storeRequest 0x03).putBin b { r with place := if s.operands.cell 2 = 0 then .home else .missing }).settle).endRequest
          .ok {}))

/-- DEFINE SEGMENT of a segment 0–31: the new descriptor is the one P1–P5 give, only its validity being read when it is not valid; there
is none exactly where P1 is above 1 or a valid descriptor's field is no defined value (R6 check 2; a P1 above 1 and the fields
read with P1 = 0 are the model's reading, log entry 7), and the request is then refused; the further checks of R6 are made in
order; an accepted one writes the descriptor, leaves its changed flag, and answers with the home range. -/
def Obligations.DefineSegmentIsCheckedAndWritten : Prop :=
  ∀ (s : State) (g : SegNo), s.windowFree = true → s.operands.cell 0 = g.val →
    (s.operands.cell 1 = 0 → s.operands.descriptor? (s.segment g) = some { s.segment g with valid := false })
    ∧ (s.operands.cell 1 = 1 → ∀ (a : Aisle) (dir : Direction) (cls : AccessClass),
        s.operands.cell 2 = a.val → s.operands.cell 3 ≤ 511 → 1 ≤ s.operands.cell 4 → s.operands.cell 4 ≤ 64 →
        s.operands.highByte 5 = dir.code → s.operands.lowByte 5 = cls.code →
        s.operands.descriptor? (s.segment g) = some
          { valid := true, aisle := a, base := s.operands.cell 3, length := s.operands.cell 4, direction := dir, cls := cls
            changed := (s.segment g).changed })
    ∧ (s.operands.descriptor? (s.segment g) = none ↔ 1 < s.operands.cell 1 ∨ (s.operands.cell 1 = 1 ∧
        (5 < s.operands.cell 2 ∨ 511 < s.operands.cell 3 ∨ s.operands.cell 4 = 0 ∨ 64 < s.operands.cell 4
          ∨ 1 < s.operands.highByte 5 ∨ 3 < s.operands.lowByte 5)))
    ∧ (s.operands.descriptor? (s.segment g) = none → exec .defineSegment s = .next (s.requestDone 0x05 .badOperand {}))
    ∧ ∀ d, s.operands.descriptor? (s.segment g) = some d →
      let old := s.segment g
      let moves := old.valid ≠ d.valid ∨ old.aisle ≠ d.aisle ∨ old.base ≠ d.base ∨ old.direction ≠ d.direction
      let resized := old.length ≠ d.length
      let used := ∃ e ∈ s.tab.bins, e.1 / 64 = g.val
      let outside := ∃ e ∈ s.tab.bins, e.1 / 64 = g.val ∧ d.holdsOffset (e.1 % 64) = false
      let overlap := ∃ h : SegNo, h ≠ g ∧ (s.segment h).valid = true ∧ (s.segment h).aisle = d.aisle
        ∧ d.lowest ≤ (s.segment h).highest ∧ (s.segment h).lowest ≤ d.highest
      let inRack := if d.direction = .up then d.base + d.length ≤ 512 else d.length ≤ d.base + 1
      (d.valid = true ∧ ¬ inRack → exec .defineSegment s = .next (s.requestDone 0x05 .badOperand {}))
      ∧ ((d.valid = true → inRack) → (moves ∨ resized) ∧ old.changed = true →
          exec .defineSegment s = .next (s.requestDone 0x05 .changedPending {}))
      ∧ ((d.valid = true → inRack) → ((moves ∨ resized) → old.changed = false) →
          (moves ∧ used) ∨ (¬ moves ∧ resized ∧ outside) →
          exec .defineSegment s = .next (s.requestDone 0x05 .segmentInUse {}))
      ∧ ((d.valid = true → inRack) → ((moves ∨ resized) → old.changed = false) → (moves → ¬ used) →
          (¬ moves ∧ resized → ¬ outside) → d.valid = true ∧ (moves ∨ resized) ∧ overlap →
          exec .defineSegment s = .next (s.requestDone 0x05 .overlap {}))
      ∧ ((d.valid = true → inRack) → ((moves ∨ resized) → old.changed = false) → (moves → ¬ used) →
          (¬ moves ∧ resized → ¬ outside) → (d.valid = true ∧ (moves ∨ resized) → ¬ overlap) →
          exec .defineSegment s = .next ((s.putSegment g d).requestDone 0x05 .ok
            (if d.valid then { a0 := word d.lowest, a1 := word d.highest } else { a0 := 0xFFFF, a1 := 0xFFFF })))

/-- READ BIN, READ SEGMENT and READ CHANGED answer with the fields of R182 and change nothing outside the window; CLEAR CHANGED
clears one flag and answers with the flag before. Where a place carries no qualifier the qualifier field is open: the clause holds
of whatever value stands there. -/
def Obligations.BinAndSegmentReadsAnswer : Prop :=
  ∀ (s : State), s.windowFree = true →
    (∀ b r, s.enrolledOperand s.operands = .ok (b, r) → ∃ q, q < 8 ∧ (∀ v, r.place.qualifier = some v → q = v) ∧
      exec .readBin s = .next (s.requestDone 0x04 .ok
        { a0 := word (r.kind.code * 16384 + (s.homeAisle b).val * 2048 + b.val)
          a1 := bytePair r.capacity r.itemCount
          a2 := bytePair r.pickedOut (match r.holder with | some e => e.val | none => 0xFF)
          a3 := word (r.place.code * 4096 + q * 512 + s.homePosition b) }))
    ∧ (∀ g : SegNo, s.operands.cell 0 = g.val →
      exec .readSegment s = .next (s.requestDone 0x06 .ok
        { a0 := word (flagCode (s.segment g).valid * 32768 + flagCode (s.segment g).changed * 16384 + (s.segment g).aisle.val)
          a1 := word (s.segment g).base
          a2 := bytePair (s.segment g).length ((s.tab.bins.filter fun e => e.1 / 64 == g.val).length)
          a3 := bytePair (s.segment g).direction.code (s.segment g).cls.code })
      ∧ exec .clearChanged s = .next ((s.putSegment g { s.segment g with changed := false }).requestDone 0x08 .ok
        { a0 := word (flagCode (s.segment g).changed) }))
    ∧ (31 < s.operands.cell 0 → exec .readSegment s = .next (s.requestDone 0x06 .badOperand {})
      ∧ exec .clearChanged s = .next (s.requestDone 0x08 .badOperand {})
      ∧ exec .defineSegment s = .next (s.requestDone 0x05 .badOperand {}))
    ∧ ∃ a0 a1 : Word, exec .readChanged s = .next (s.requestDone 0x07 .ok { a0 := a0, a1 := a1 })
      ∧ ∀ n : Fin 16, a0.getLsbD n.val = (s.segment ⟨n.val, by omega⟩).changed
        ∧ a1.getLsbD n.val = (s.segment ⟨n.val + 16, by omega⟩).changed

/-! ## The day, categories and patrons (Chapter 2) -/

/-- R36 and R38: SET DAY, SET CATEGORY and READ CATEGORY. -/
def Obligations.DayAndCategoryRowsAreSet : Prop :=
  (∀ (s : State), s.windowFree = true →
      (s.tab.day ≤ s.operands.cell 0 →
        exec .setDay s = .next (State.requestDone 0x09 .ok { a0 := word s.tab.day } { s with tab.day := s.operands.cell 0 }))
      ∧ (s.operands.cell 0 < s.tab.day → exec .setDay s = .next (s.requestDone 0x09 .dayBackward {})))
  ∧ (∀ (s : State), s.windowFree = true →
      (∀ c : Category, s.operands.cell 0 = c.code →
        Judged s .setCategory 0x0A [(decide (s.operands.cell 1 ≤ 63 ∧ s.operands.cell 2 ≤ 180), .badOperand)]
          (State.requestDone 0x0A .ok { a0 := word (s.categoryRow c).limit, a1 := word (s.categoryRow c).maxDays }
            { s with tab.categories := s.tab.categories.set c.row ⟨s.operands.cell 1, s.operands.cell 2⟩ })
        ∧ exec .readCategory s = .next (s.requestDone 0x0B .ok
            { a0 := word (s.categoryRow c).limit, a1 := word (s.categoryRow c).maxDays }))
      ∧ (3 < s.operands.cell 0 → exec .setCategory s = .next (s.requestDone 0x0A .badOperand {})
        ∧ exec .readCategory s = .next (s.requestDone 0x0B .badOperand {})))

/-- R30 to R32: ENROL PATRON, RETIRE PATRON and SET PATRON BLOCK. -/
def Obligations.PatronRecordsAreKept : Prop :=
  ∀ (s : State), s.windowFree = true →
    (∀ c : Category, s.operands.cell 2 = c.code →
      Judged s .enrolPatron 0x13
        [(decide (1 ≤ s.operands.patron ∧ s.operands.patron ≤ 1048575), .badOperand),
         ((s.patron? s.operands.patron).isNone, .duplicate),
         (decide (s.tab.patrons.length < 4096), .tableFull)]
        ((s.putPatron s.operands.patron { category := c, holdCount := 0, blocked := false, loans := [] }).requestDone 0x13 .ok {}))
    ∧ (3 < s.operands.cell 2 → exec .enrolPatron s = .next (s.requestDone 0x13 .badOperand {}))
    ∧ (∀ p, 1 ≤ s.operands.patron → s.operands.patron ≤ 1048575 → s.patron? s.operands.patron = some p →
      Judged s .retirePatron 0x14 [(decide (p.loans.length = 0 ∧ p.holdCount = 0), .inUse)]
        ((s.erasePatron s.operands.patron).requestDone 0x14 .ok {})
      ∧ (∀ f : Bool, s.operands.cell 2 = flagCode f →
        exec .setPatronBlock s = .next ((s.putPatron s.operands.patron { p with blocked := f }).requestDone 0x15 .ok
          { a0 := word (flagCode p.blocked) })))
    ∧ (¬ (1 ≤ s.operands.patron ∧ s.operands.patron ≤ 1048575) →
      exec .retirePatron s = .next (s.requestDone 0x14 .badOperand {})
      ∧ exec .setPatronBlock s = .next (s.requestDone 0x15 .badOperand {}))
    ∧ (1 < s.operands.cell 2 → exec .setPatronBlock s = .next (s.requestDone 0x15 .badOperand {}))
    ∧ (1 ≤ s.operands.patron → s.operands.patron ≤ 1048575 → s.patron? s.operands.patron = none →
      exec .retirePatron s = .next (s.requestDone 0x14 .noRecord {})
      ∧ (s.operands.cell 2 ≤ 1 → exec .setPatronBlock s = .next (s.requestDone 0x15 .noRecord {})))

/-- R28, R33 and R34: READ PATRON, READ LOANS and READ ITEM answer with the fields of R182 and change nothing outside the window.
The due day FFFF and the renewals FF of READ LOANS at an index beyond the list are the model's reading of R180 (log entry 21), and
the mark for none for the patron of an item that is not ON_LOAN, where R29 has 0 stand for no patron, is the model's choice (log
entry 38). -/
def Obligations.PatronAndItemReadsAnswer : Prop :=
  (∀ (s : State) (p : Patron), s.windowFree = true → 1 ≤ s.operands.patron → s.operands.patron ≤ 1048575 →
      s.patron? s.operands.patron = some p →
      exec .readPatron s = .next (s.requestDone 0x16 .ok
        { a0 := bytePair p.category.code p.loans.length
          a1 := bytePair p.holdCount (flagCode p.blocked)
          a2 := match p.loans with | t :: _ => word (s.dueOf t) | [] => 0xFFFF
          a3 := match p.loans with | t :: _ => if s.dueOf t < s.tab.day then 1 else 0 | [] => 0 })
      ∧ (∀ t, s.operands.cell 2 ≤ 62 → p.loans[s.operands.cell 2]? = some t →
        exec .readLoans s = .next (s.requestDone 0x17 .ok
          { a0 := word (t / 65536), a1 := word t, a2 := word (s.dueOf t)
            a3 := bytePair (s.renewalsOf t) p.loans.length }))
      ∧ (s.operands.cell 2 ≤ 62 → p.loans.length ≤ s.operands.cell 2 →
        exec .readLoans s = .next (s.requestDone 0x17 .ok
          { a0 := 0, a1 := 0, a2 := 0xFFFF, a3 := bytePair 0xFF p.loans.length })))
  ∧ (∀ (s : State), s.windowFree = true →
      (¬ (1 ≤ s.operands.patron ∧ s.operands.patron ≤ 1048575) →
        exec .readPatron s = .next (s.requestDone 0x16 .badOperand {})
        ∧ exec .readLoans s = .next (s.requestDone 0x17 .badOperand {}))
      ∧ (62 < s.operands.cell 2 → exec .readLoans s = .next (s.requestDone 0x17 .badOperand {}))
      ∧ (1 ≤ s.operands.patron → s.operands.patron ≤ 1048575 → s.patron? s.operands.patron = none →
        exec .readPatron s = .next (s.requestDone 0x16 .noRecord {})
        ∧ (s.operands.cell 2 ≤ 62 → exec .readLoans s = .next (s.requestDone 0x17 .noRecord {}))))
  ∧ (∀ (s : State), s.windowFree = true →
      (¬ (1 ≤ s.operands.tag ∧ s.operands.tag ≤ 16777215) ∨ 2 < s.operands.cell 2
          ∨ (s.operands.cell 2 = 2 ∧ 3 < s.operands.cell 3) →
        exec .readItem s = .next (s.requestDone 0x12 .badOperand {}))
      ∧ (1 ≤ s.operands.tag → s.operands.tag ≤ 16777215 →
        s.operands.cell 2 ≤ 1 ∨ (s.operands.cell 2 = 2 ∧ s.operands.cell 3 ≤ 3) →
        (s.item? s.operands.tag = none → exec .readItem s = .next (s.requestDone 0x12 .noRecord {}))
        ∧ ∀ i, s.item? s.operands.tag = some i →
          (s.operands.cell 2 = 0 → ∀ a1 a2 : Word,
            (match i.state with
              | .shelved b => a1 = word b.val ∧ a2 = 0xFFFF
              | .held b => a1 = word b.val ∧ a2 = 0xFFFF
              | .picked k b => a1 = word k.val ∧ a2 = word b.val
              | _ => a1 = 0xFFFF ∧ a2 = 0xFFFF) →
            exec .readItem s = .next (s.requestDone 0x12 .ok
              { a0 := word i.state.code, a1 := a1, a2 := a2, a3 := word i.holds.length }))
          ∧ (s.operands.cell 2 = 1 → ∀ n due k, i.state = .onLoan n due k →
            exec .readItem s = .next (s.requestDone 0x12 .ok
              { a0 := word (n / 65536), a1 := word n, a2 := word due, a3 := word k }))
          ∧ (s.operands.cell 2 = 1 → (∀ n due k, i.state ≠ .onLoan n due k) →
            exec .readItem s = .next (s.requestDone 0x12 .ok { a0 := 0xFFFF, a1 := 0xFFFF, a2 := 0xFFFF, a3 := 0xFFFF }))
          ∧ (s.operands.cell 2 = 2 → ∀ n, (i.holds[s.operands.cell 3]?).getD 0 = n →
            exec .readItem s = .next (s.requestDone 0x12 .ok
              { a0 := word (n / 65536), a1 := word n, a2 := word i.holds.length }))))

/-! ## Items (Chapter 2) -/

/-- R25 and R27: ENROL ITEM at the CONTEXT station, and RETIRE ITEM by the state of the item. -/
def Obligations.ItemsAreEnrolledAndRetired : Prop :=
  (∀ (s : State) (n : StationNo), s.windowFree = true → s.operands.station = n.val →
      let first : List (Bool × Code) :=
        [(decide (1 ≤ s.operands.tag ∧ s.operands.tag ≤ 16777215), .badOperand),
         (decide (n.val ≤ 3), .wrongState),
         (!(s.stationState n).isFireHeld, .zoneLocked),
         (decide (s.stationState n = .opened), .stationClosed),
         ((s.item? s.operands.tag).isNone, .duplicate)]
      (∀ c, firstFailing first = some c → exec .enrolItem s = .next (s.requestDone 0x10 c {}))
      ∧ (firstFailing first = none → s.presentedBin? n = none → exec .enrolItem s = .next (s.requestDone 0x10 .notPresented {}))
      ∧ (firstFailing first = none → ∀ b r, s.presentedBin? n = some (b, r) →
        Judged s .enrolItem 0x10
          [(decide (r.kind = .collection ∨ r.kind = .intake), .wrongState),
           (decide (r.itemCount < r.capacity), .binFull),
           (decide (s.tab.items.length < 32768), .tableFull)]
          (((s.putItem s.operands.tag { state := .shelved b, holds := [] }).countIn b).requestDone 0x10 .ok
            { a0 := word b.val, a1 := word (r.itemCount + 1) })))
  ∧ (∀ (s : State), s.windowFree = true →
      (¬ (1 ≤ s.operands.tag ∧ s.operands.tag ≤ 16777215) → exec .retireItem s = .next (s.requestDone 0x11 .badOperand {}))
      ∧ (1 ≤ s.operands.tag → s.operands.tag ≤ 16777215 →
        (s.item? s.operands.tag = none → exec .retireItem s = .next (s.requestDone 0x11 .noRecord {}))
        ∧ ∀ i, s.item? s.operands.tag = some i →
          let done (u : State) : State :=
            (((State.dropHolds i.holds u).eraseItem s.operands.tag).settle).endRequest .ok
              { a0 := word i.state.code, a1 := word i.holds.length }
          (∀ b, i.state = .shelved b → exec .retireItem s = .next (done ((s.storeRequest 0x11).countOut b)))
          ∧ (i.state = .dropped → exec .retireItem s =
              .next (done { s.storeRequest 0x11 with dropList := s.dropList.erase s.operands.tag }))
          ∧ (i.state = .lost → exec .retireItem s = .next (done (s.storeRequest 0x11)))
          ∧ ((∃ b, i.state = .held b) ∨ (∃ k b, i.state = .picked k b) ∨ (∃ n due k, i.state = .onLoan n due k) →
              exec .retireItem s = .next (s.requestDone 0x11 .wrongState {}))))

/-! ## Orders (Chapter 3) -/

/-- R46, R47 and R64: FETCH at a pick station and AUDIT BIN, their bin operand resolved. AUDIT BIN asks for the bin's home zone, and for
zone 3 too where the part follows R141's row and not check 4 of R64 alone: the statement holds whichever it follows (a free value, log
entry 29), and while zone 3 is NORMAL the two agree. -/
def Obligations.FetchAndAuditBinQueueOrders : Prop :=
  (∀ (s : State) (b : BinNo) (r : BinRec) (k : PickNo), s.windowFree = true → s.operands.station = k.val →
      s.enrolledOperand s.operands = .ok (b, r) →
      let checks : List (Bool × Code) :=
        [(decide (s.operands.cell 2 ≤ 3), .badOperand),
         (decide (r.place = .home), .wrongPlace),
         (r.holder.isNone, .inUse),
         (decide (s.classOf b ≠ .closedClass), .access),
         (decide (s.classOf b = .inBuilding ∨ s.classOf b = .view → s.tab.supervised[pickStation k] = true), .access),
         (decide (s.zoneState (zoneOf (s.homeAisle b)) = .normal ∧ s.zoneState 3 = .normal), .zoneLocked),
         (decide (s.stationState (pickStation k) = .opened), .stationClosed),
         (decide ((s.presentationQueue k).length + s.reserved k < 4), .stationFull),
         (decide (s.ou.quiet = .active), .quiet),
         (s.freeEntry?.isSome, .noOrderEntry)]
      (∀ c, firstFailing checks = some c → exec .fetch s = .next (s.requestDone 0x20 c {}))
      ∧ ∀ (e : OrderNo) (pr : Fin 4), firstFailing checks = none → s.freeEntry? = some e → pr.val = s.operands.cell 2 →
        let u := (s.storeRequest 0x20).makeFetch e b pr k
        exec .fetch s = .next (u.settle.endRequest .ok { a0 := word e.val })
        ∧ u.order? e = some { kind := .fetch, source := .host, bin := b, aisle := s.homeAisle b, priority := pr
                              stage := .run .queued, dest := some (.pick k), cancel := false, pendingOutcome := none }
        ∧ u.binRec? b = some { r with holder := some e }
        ∧ u.reserved k = s.reserved k + 1
        ∧ u.queue (s.homeAisle b) = queueInsert u.priorityOf e (s.queue (s.homeAisle b)))
  ∧ (∀ (s : State) (b : BinNo) (r : BinRec), s.windowFree = true → s.enrolledOperand s.operands = .ok (b, r) →
      let checks : List (Bool × Code) :=
        [(decide (s.operands.cell 2 ≤ 3), .badOperand),
         (decide (r.place = .home ∨ r.place = .unverified ∨ r.place = .missing), .wrongPlace),
         (r.holder.isNone, .inUse),
         (decide (s.zoneState (zoneOf (s.homeAisle b)) = .normal
            ∧ (s.zoneState 3 = .normal ∨ Config.auditBinNeedsHall = false)), .zoneLocked),
         (decide (s.ou.quiet = .active), .quiet),
         (s.freeEntry?.isSome, .noOrderEntry)]
      (∀ c, firstFailing checks = some c → exec .auditBin s = .next (s.requestDone 0x27 c {}))
      ∧ ∀ (e : OrderNo) (pr : Fin 4), firstFailing checks = none → s.freeEntry? = some e → pr.val = s.operands.cell 2 →
        let probe : Order := { kind := .probe, source := .host, bin := b, aisle := s.homeAisle b, priority := pr
                               stage := .run .queued, dest := none, cancel := false, pendingOutcome := none }
        let u := (s.storeRequest 0x27).placeOrder e probe
        exec .auditBin s = .next (u.settle.endRequest .ok { a0 := word e.val })
        ∧ u.order? e = some probe ∧ u.binRec? b = some { r with holder := some e }
        ∧ u.queue (s.homeAisle b) = queueInsert u.priorityOf e (s.queue (s.homeAisle b)))

/-- R109 and R166: a latched CONTEXT above 4 is refused with BAD_OPERAND; a tag or a patron out of its range is refused with
BAD_OPERAND by each request that carries one; a request of pick stations is refused with WRONG_STATE at station 4, and one of
station 4 at a pick station; then the station checks of the handling and the record requests, and an item without a record. -/
def Obligations.RequestsCheckTheirStation : Prop :=
  ∀ (s : State), s.windowFree = true →
    let tagFits := 1 ≤ s.operands.tag ∧ s.operands.tag ≤ 16777215
    let patronFits := 1 ≤ s.operands.secondPatron ∧ s.operands.secondPatron ≤ 1048575
    (4 < s.operands.station → ∀ (i : Instr) (code : Word), (i, code) ∈
        ([(.enrolItem, 0x10), (.fetch, 0x20), (.openStation, 0x30), (.closeStation, 0x31), (.setStation, 0x32), (.dismiss, 0x33),
          (.pick, 0x40), (.putBack, 0x41), (.charge, 0x42), (.renew, 0x43), (.declareLost, 0x44), (.placeHold, 0x45),
          (.cancelHold, 0x46), (.returnItem, 0x50), (.placeDropped, 0x51), (.closePosition, 0x52)] : List (Instr × Word)) →
      exec i s = .next (s.requestDone code .badOperand {}))
    ∧ (s.operands.station ≤ 4 → ∀ (i : Instr) (code : Word),
      (¬ tagFits → (i, code) ∈
          ([(.enrolItem, 0x10), (.pick, 0x40), (.putBack, 0x41), (.charge, 0x42), (.renew, 0x43), (.declareLost, 0x44),
            (.placeHold, 0x45), (.cancelHold, 0x46), (.returnItem, 0x50), (.placeDropped, 0x51)] : List (Instr × Word)) →
        exec i s = .next (s.requestDone code .badOperand {}))
      ∧ (¬ patronFits → (i, code) ∈ ([(.charge, 0x42), (.placeHold, 0x45), (.cancelHold, 0x46)] : List (Instr × Word)) →
        exec i s = .next (s.requestDone code .badOperand {})))
    ∧ (s.operands.station = 4 →
      (∀ b r, s.enrolledOperand s.operands = .ok (b, r) → s.operands.cell 2 ≤ 3 →
        exec .fetch s = .next (s.requestDone 0x20 .wrongState {}))
      ∧ (s.operands.cell 0 ≤ 3 → exec .dismiss s = .next (s.requestDone 0x33 .wrongState {}))
      ∧ (∀ (a : Aisle) b r, s.operands.cell 0 = 0 → s.operands.cell 1 = a.val → s.operands.cell 2 ≤ 3 → s.outPlace a = some b →
        s.binRec? b = some r → r.holder = none → s.zoneState 3 = .normal →
        exec .reclaimPlace s = .next (s.requestDone 0x34 .wrongState {}))
      ∧ (tagFits → ∀ (i : Instr) (code : Word),
        ((i, code) ∈ ([(.enrolItem, 0x10), (.pick, 0x40), (.putBack, 0x41), (.renew, 0x43), (.declareLost, 0x44)]
            : List (Instr × Word)) → exec i s = .next (s.requestDone code .wrongState {}))
        ∧ (patronFits → (i, code) ∈ ([(.charge, 0x42), (.placeHold, 0x45), (.cancelHold, 0x46)] : List (Instr × Word)) →
          exec i s = .next (s.requestDone code .wrongState {}))))
    ∧ (s.operands.station < 4 →
      (tagFits →
        exec .returnItem s = .next (s.requestDone 0x50 .wrongState {})
        ∧ exec .placeDropped s = .next (s.requestDone 0x51 .wrongState {}))
      ∧ (s.operands.cell 0 ≤ 1 → exec .closePosition s = .next (s.requestDone 0x52 .wrongState {})))
    ∧ ∀ (k : PickNo) (i : Instr) (code : Word), s.operands.station = k.val → tagFits →
      ((i, code) ∈ ([(.pick, 0x40), (.putBack, 0x41), (.renew, 0x43)] : List (Instr × Word))
          ∨ (i, code) = (.charge, 0x42) ∧ patronFits →
        ((∃ r, s.stationState (pickStation k) = .fireHeld r) → exec i s = .next (s.requestDone code .zoneLocked {}))
        ∧ (s.stationState (pickStation k) = .closed → exec i s = .next (s.requestDone code .stationClosed {}))
        ∧ (s.stationState (pickStation k) = .opened → s.item? s.operands.tag = none →
            exec i s = .next (s.requestDone code .noRecord {})))
      ∧ ((i, code) = (.declareLost, 0x44)
          ∨ (i, code) ∈ ([(.placeHold, 0x45), (.cancelHold, 0x46)] : List (Instr × Word)) ∧ patronFits →
        (s.stationState (pickStation k) = .closed ∨ s.stationState (pickStation k) = .fireHeld false →
            exec i s = .next (s.requestDone code .stationClosed {}))
        ∧ (s.stationState (pickStation k) = .opened ∨ s.stationState (pickStation k) = .fireHeld true →
            s.item? s.operands.tag = none → exec i s = .next (s.requestDone code .noRecord {})))

/-- R48 and R116: an order joins its aisle queue behind every order of its priority or a higher one, and an entry joins a loan list behind
every entry due that day or before; the rest keep their order, and a list so ordered stays so. -/
def Obligations.QueuesAndLoanListsKeepTheirOrder : Prop :=
  (∀ (priority : OrderNo → Nat) (o : OrderNo) (q : List OrderNo),
      (∃ front back, q = front ++ back ∧ queueInsert priority o q = front ++ o :: back
        ∧ (∀ x ∈ front, priority o ≤ priority x) ∧ (∀ x, back.head? = some x → priority x < priority o))
      ∧ (q.Pairwise (fun x y => priority y ≤ priority x) →
          (queueInsert priority o q).Pairwise (fun x y => priority y ≤ priority x)))
  ∧ (∀ (dueOf : Tag → Nat) (d : Nat) (t : Tag) (l : List Tag),
      (∃ front back, l = front ++ back ∧ loanInsert dueOf d t l = front ++ t :: back
        ∧ (∀ x ∈ front, dueOf x ≤ d) ∧ (∀ x, back.head? = some x → d < dueOf x))
      ∧ (loanInsert dueOf d t l).length = l.length + 1
      ∧ (dueOf t = d → l.Pairwise (fun x y => dueOf x ≤ dueOf y) →
          (loanInsert dueOf d t l).Pairwise (fun x y => dueOf x ≤ dueOf y)))

/-- The settling of a step, which most events end with, is made of the blocks' looks for work in the model's one order (log entry 10).
R49, R50: an aisle is ready for an order when its shuttle is IDLE, or PARKED in a NORMAL zone in quiet running, and its slot is
empty (the slot: log entry 17); the OU then starts the first dispatchable order of the aisle, an order being dispatchable by its
zone, the front hall, the quiet state and the carried bin. R51, R85: a held HAND_OFF or TAKE_ON is given again when it may be.
R65: in quiet running an IDLE shuttle of a NORMAL zone with no dispatchable order and no carried bin is sent PARK. R66, R63: the
quiet state and the sweep are left as they are while their conditions do not hold. -/
def Obligations.SettlingGivesTheBlocksTheirWork : Prop :=
  ∀ (s : State),
    (s.settle = s.settleZones.settleWork.parkIdle.tryQuiet.tryAuditEnd
      ∧ s.settleZones = [0, 1, 2, 3].foldl (fun t z => t.tryRecover z) ([0, 1, 2, 3].foldl (fun t z => t.trySeal z) s)
      ∧ s.settleWork = s.tendPositions.workAisles.lookForCrossing.tendPositions.workAisles
      ∧ s.tendPositions = (((s.tryDismissal .intake).tryDismissal .hold).tryFetch .intake).tryFetch .hold
      ∧ s.workAisles = [0, 1, 2, 3, 4, 5].foldl (fun t a => ((t.resumeHolding a).resumeTakeOn a).dispatch a) s
      ∧ s.parkIdle = [0, 1, 2, 3, 4, 5].foldl (fun t a => t.quietPark a) s)
    ∧ (∀ o r, s.order? o = some r → (s.dispatchable o = true ↔
      (s.zoneState (zoneOf r.aisle) = .normal
        ∨ (s.zoneState (zoneOf r.aisle) = .recovery ∧ (r.kind = .restore ∨ r.kind = .probe)))
      ∧ (r.kind = .stow → s.zoneState 3 = .normal)
      ∧ (s.ou.quiet = .active ∨ (s.ou.quiet = .quiescing ∧ (r.kind = .stow ∨ r.source ≠ .host))
        ∨ (s.ou.quiet = .quiet ∧ r.source = .recovery))
      ∧ ((s.shuttle r.aisle).carried = none
        ∨ (r.kind = .restore ∧ (s.shuttle r.aisle).carried = some r.bin))))
    ∧ (∀ a : Aisle,
      (s.readyForOrder a = true ↔ s.slot a = none ∧ ((s.shuttle a).state = .idle
        ∨ ((s.shuttle a).state = .parked ∧ s.zoneState (zoneOf a) = .normal ∧ s.ou.quiet ≠ .active)))
      ∧ (∀ o r, s.readyForOrder a = true → (s.queue a).find? s.dispatchable = some o → s.order? o = some r →
        let t := s.dispatch a
        let first : RunStage × Motion := match r.kind with
          | .fetch => (.seeking, .travel (s.homePosition r.bin))
          | .probe => (.seeking, .travel (s.homePosition r.bin))
          | .stow => (.takingOn, .takeOn)
          | .restore => (.returning, .travel (s.homePosition r.bin))
        t.order? o = some { r with stage := .run first.1 }
        ∧ (∀ o', o' ≠ o → t.order? o' = s.order? o')
        ∧ (∀ a', t.queue a' = if a' = a then (s.queue a).filter (· ≠ o) else s.queue a')
        ∧ t.shuttle a = { s.shuttle a with
            state := .busy, order := some o, command := some ⟨first.2, .sent, false⟩, deadline := none }
        ∧ t.slot a = some (.command first.2 false)
        ∧ (∀ a', a' ≠ a → t.shuttle a' = s.shuttle a' ∧ t.slot a' = s.slot a')
        ∧ t.tab = s.tab)
      ∧ ((s.queue a).find? s.dispatchable = none ∨ s.readyForOrder a = false → s.dispatch a = s)
      ∧ (∀ o r, s.currentOrder? a = some (o, r) → r.stage = .run .holding →
        (s.outPlace a = none → s.zoneState 3 = .normal →
          s.resumeHolding a = (s.putOrder o { r with stage := .run .handing }).giveCommand a .handOff false)
        ∧ (s.outPlace a ≠ none ∨ s.zoneState 3 ≠ .normal → s.resumeHolding a = s))
      ∧ ((∀ o r, s.currentOrder? a = some (o, r) → r.stage ≠ .run .holding) → s.resumeHolding a = s)
      ∧ (let held := (∃ o r, s.currentOrder? a = some (o, r) ∧ r.stage = .run .takingOn) ∧ (s.shuttle a).state = .busy
          ∧ (s.shuttle a).command = none ∧ s.slot a = none
        (held → s.zoneState 3 = .normal → s.zoneState (zoneOf a) = .normal → s.resumeTakeOn a = s.giveCommand a .takeOn false)
        ∧ (¬ held ∨ s.zoneState 3 ≠ .normal ∨ s.zoneState (zoneOf a) ≠ .normal → s.resumeTakeOn a = s))
      ∧ (let parks := s.ou.quiet ≠ .active ∧ (s.shuttle a).state = .idle ∧ s.slot a = none
          ∧ s.zoneState (zoneOf a) = .normal ∧ (s.shuttle a).carried = none ∧ (s.queue a).find? s.dispatchable = none
        (parks → (s.quietPark a).shuttle a = { s.shuttle a with
            state := .busy, order := none, command := some ⟨.park, .sent, false⟩, deadline := none }
          ∧ (s.quietPark a).slot a = some (.command .park false)
          ∧ (∀ a', a' ≠ a → (s.quietPark a).shuttle a' = s.shuttle a' ∧ (s.quietPark a).slot a' = s.slot a')
          ∧ (s.quietPark a).ou = s.ou ∧ (s.quietPark a).tab = s.tab)
        ∧ (¬ parks → s.quietPark a = s)))
    ∧ (s.ou.quiet ≠ .quiescing ∨ s.atQuiet = false → s.tryQuiet = s)
    ∧ (s.ou.sweep = false ∨ s.ou.cursor ≠ some 2048 ∨ s.ou.auditCount ≠ 0 → s.tryAuditEnd = s)

/-- R40, R42 and R43: what the finishing of an order changes, in one step: a FINISHED entry has its outcome and no pending outcome. R130:
the return-station position that waits for a FETCH is PRESENTED with its bin on OK, and EMPTY on any other outcome. -/
def Obligations.FinishedOrderLetsGo : Prop :=
  ∀ (s : State) (o : OrderNo) (r : Order) (out : Outcome), s.order? o = some r →
    let t := s.finishOrder o out
    t.order? o = some { r with stage := .finished (if r.cancel then .cancelled else out), pendingOutcome := none }
    ∧ t.binRec? r.bin = (s.binRec? r.bin).map (fun b => { b with holder := none })
    ∧ t.queue r.aisle = (s.queue r.aisle).filter (· ≠ o)
    ∧ (t.shuttle r.aisle).order ≠ some o
    ∧ (∀ k, r.dest = some (.pick k) → t.reserved k = s.reserved k - 1)
    ∧ (∀ p, r.dest = some (.ret p) → s.position p = .arriving o →
        t.position p = if r.cancel = false ∧ out = .ok then .presented r.bin else .empty)
    ∧ t.ou.auditCount = s.ou.auditCount - (if r.source = .audit then 1 else 0)
    ∧ t.pendingCause .orderFinished = true
    ∧ (∀ o', o' ≠ o → t.order? o' = s.order? o')

/-- R44 and R45: COLLECT takes the lowest-numbered FINISHED entry, frees it and offers it to the claim list; READ ORDER reads an
entry and changes nothing. The FF in A3 of READ ORDER for an order neither FINISHED nor HALTED is the model's reading of R180 (log
entry 21). -/
def Obligations.FinishedOrdersAreCollected : Prop :=
  ∀ (s : State), s.windowFree = true →
    ((∀ e r, s.order? e = some r → r.isFinished = false) →
      exec .collect s = .next (s.requestDone 0x21 .nothingFinished {}))
    ∧ (∀ e r out, s.order? e = some r → r.stage = .finished out →
        (∀ e' r', e' < e → s.order? e' = some r' → r'.isFinished = false) →
        exec .collect s = .next ((((s.storeRequest 0x21).freeAndOffer e).settle).endRequest .ok
          { a0 := word e.val, a1 := bytePair r.kind.code r.source.code, a2 := word r.bin.val, a3 := word out.code })
        ∧ (s.ou.claims = [] → (s.freeAndOffer e) = s.freeOrder e)
        ∧ (s.freeOrder e).order? e = none)
    ∧ (31 < s.operands.cell 0 → exec .readOrder s = .next (s.requestDone 0x22 .badOperand {}))
    ∧ (∀ e : OrderNo, s.operands.cell 0 = e.val → s.order? e = none →
        exec .readOrder s = .next (s.requestDone 0x22 .noRecord {}))
    ∧ (∀ (e : OrderNo) (r : Order), s.operands.cell 0 = e.val → s.order? e = some r →
        exec .readOrder s = .next (s.requestDone 0x22 .ok
          { a0 := bytePair r.kind.code r.source.code
            a1 := word ((if r.cancel then 32768 else 0) + r.aisle.val * 2048 + r.bin.val)
            a2 := bytePair r.stage.code r.priority.val
            a3 := bytePair (match r.dest with | some d => d.code | none => 0xFF)
              (match r.stage with
                | .finished out => out.code
                | .halted h => h.stageAt.code * 16 + h.reason.code
                | .run _ => 0xFF) }))

/-- R60 and R61: a freed entry is offered to the claims in the order of their claimants, and goes to the first that can use it: a
RESTORE claim takes it; a dismissal claim takes it for its STOW, and is passed over while station 4's out place is taken; a fetch
claim takes it for the first member of its pool, and with an empty pool leaves the list and its position is WANTING; the audit
cursor's claim takes it in ACTIVE when its bin qualifies, and leaves the list otherwise; outside ACTIVE the cursor stays where it
is, which for a bin that no longer qualifies is the model's choice (log entry 37). A claim that takes the entry leaves the list; a
dismissal or fetch claim that takes it in QUIET wakes the wing, with WOKEN latched, and one that does not leaves the quiet state as
it was (log entry 11). R41: a new order takes the lowest-numbered free entry, and there is none exactly when all 32 are taken. -/
def Obligations.FreedEntryIsOfferedInOrder : Prop :=
  ∀ (s : State) (e : OrderNo),
    (s.freeEntry? = some e ↔ s.order? e = none ∧ ∀ e', e' < e → s.order? e' ≠ none)
    ∧ (s.freeEntry? = none ↔ ∀ e', s.order? e' ≠ none)
    ∧ (∀ (c : Claim) rest, (s.offer e c).1 = true → s.offerAll e (c :: rest) = (s.offer e c).2)
    ∧ (∀ (c : Claim) rest, (s.offer e c).1 = false → s.offerAll e (c :: rest) = (s.offer e c).2.offerAll e rest)
    ∧ s.offerAll e [] = s
    ∧ s.freeAndOffer e = (s.freeOrder e).offerAll e s.claimsInOrder
    ∧ s.claimsInOrder.Pairwise (fun c d => c.rank < d.rank)
    ∧ (∀ c ∈ s.claimsInOrder, c ∈ s.ou.claims) ∧ (∀ c ∈ s.ou.claims, ∃ d ∈ s.claimsInOrder, d.rank = c.rank)
    ∧ (∀ (a : Aisle) (b : BinNo), (Claim.restore a b).rank = a.val ∧ (Claim.audit b).rank = 10)
    ∧ (Claim.dismissal .intake).rank = 6 ∧ (Claim.dismissal .hold).rank = 7 ∧ (Claim.fetch .intake).rank = 8
    ∧ (Claim.fetch .hold).rank = 9
    ∧ (∀ a b, (s.offer e (.restore a b)).1 = true
        ∧ (s.offer e (.restore a b)).2.order? e = some
          { kind := .restore, source := .recovery, bin := b, aisle := a, priority := 3, stage := .run .queued, dest := none
            cancel := false, pendingOutcome := none }
        ∧ (s.offer e (.restore a b)).2.claims a.val = false)
    ∧ (∀ p b, s.position p = .fullWaiting b → s.stationOut returnStation = none →
        (∀ r, s.stationState returnStation ≠ .fireHeld r) →
        (s.offer e (.dismissal p)).1 = true
        ∧ (s.offer e (.dismissal p)).2.order? e = some
          { kind := .stow, source := .returnStation, bin := b, aisle := s.homeAisle b, priority := 2, stage := .run .waitingLane
            dest := none, cancel := false, pendingOutcome := none }
        ∧ (s.offer e (.dismissal p)).2.position p = .empty ∧ (s.offer e (.dismissal p)).2.stationOut returnStation = some b
        ∧ (s.offer e (.dismissal p)).2.dismissalMark p = false
        ∧ (s.ou.quiet = .quiet → (s.offer e (.dismissal p)).2.ou.quiet = .active ∧ (s.offer e (.dismissal p)).2.pendingCause .woken = true)
        ∧ (s.ou.quiet ≠ .quiet → (s.offer e (.dismissal p)).2.ou.quiet = s.ou.quiet))
    ∧ (∀ p b, s.position p = .fullWaiting b → (s.stationOut returnStation).isSome = true → s.offer e (.dismissal p) = (false, s))
    ∧ (∀ p, s.poolFirst? p = none → (s.offer e (.fetch p)).1 = false ∧ (s.offer e (.fetch p)).2.position p = .wanting
        ∧ (s.offer e (.fetch p)).2.fetchMark p = false ∧ (s.offer e (.fetch p)).2.pendingCause .intakeExhausted = true
        ∧ (s.offer e (.fetch p)).2.ou.quiet = s.ou.quiet)
    ∧ (∀ p b, s.poolFirst? p = some b → (s.offer e (.fetch p)).1 = true
        ∧ (s.offer e (.fetch p)).2.order? e = some
          { kind := .fetch, source := .returnStation, bin := b, aisle := s.homeAisle b, priority := 2, stage := .run .queued
            dest := some (.ret p), cancel := false, pendingOutcome := none }
        ∧ (s.offer e (.fetch p)).2.position p = .arriving e ∧ (s.offer e (.fetch p)).2.fetchMark p = false
        ∧ (s.ou.quiet = .quiet → (s.offer e (.fetch p)).2.ou.quiet = .active ∧ (s.offer e (.fetch p)).2.pendingCause .woken = true)
        ∧ (s.ou.quiet ≠ .quiet → (s.offer e (.fetch p)).2.ou.quiet = s.ou.quiet))
    ∧ (∀ b, (s.offer e (.audit b)).2.claims 10 = false)
    ∧ (∀ b, s.ou.quiet = .active → s.auditable b = true → (s.offer e (.audit b)).1 = true
        ∧ (s.offer e (.audit b)).2.order? e = some
          { kind := .probe, source := .audit, bin := b, aisle := s.homeAisle b, priority := 0, stage := .run .queued, dest := none
            cancel := false, pendingOutcome := none }
        ∧ (s.offer e (.audit b)).2.ou.auditCount = s.ou.auditCount + 1
        ∧ (s.offer e (.audit b)).2.ou.cursor = some (b.val + 1))
    ∧ (∀ b, s.ou.quiet = .active → s.auditable b = false → (s.offer e (.audit b)).1 = false
        ∧ (s.offer e (.audit b)).2.ou.cursor = some (b.val + 1))
    ∧ (∀ b, s.ou.quiet ≠ .active → (s.offer e (.audit b)).1 = false ∧ (s.offer e (.audit b)).2.ou.cursor = s.ou.cursor)

/-- R55: CANCEL ORDER by the kind and the stage of the order. A FETCH cancelled in QUEUED leaves its bin HOME, whatever its place was
(the model's reading of R55's table, log entry 27); a HALTED order's bin keeps its place. -/
def Obligations.CancelActsByStage : Prop :=
  ∀ (s : State), s.windowFree = true →
    (31 < s.operands.cell 0 → exec .cancelOrder s = .next (s.requestDone 0x23 .badOperand {}))
    ∧ ∀ o : OrderNo, s.operands.cell 0 = o.val →
      (s.order? o = none → exec .cancelOrder s = .next (s.requestDone 0x23 .noRecord {}))
      ∧ ∀ r, s.order? o = some r →
        (∀ out, r.stage = .finished out → exec .cancelOrder s = .next (s.requestDone 0x23 .wrongStage {}))
        ∧ (∀ h, r.stage = .halted h →
            exec .cancelOrder s = .next ((((s.storeRequest 0x23).finishOrder o .cancelled).settle).endRequest .ok {}))
        ∧ (r.kind = .fetch → r.stage = .run .queued →
            exec .cancelOrder s =
              .next (((((s.storeRequest 0x23).setPlace r.bin .home).finishOrder o .cancelled).settle).endRequest .ok {})
            ∧ ∀ rec, s.binRec? r.bin = some rec → ((s.setPlace r.bin .home).finishOrder o .cancelled).binRec? r.bin =
                some { rec with place := .home, holder := none })
        ∧ (r.kind = .fetch → r.stage = .run .seeking ∨ r.stage = .run .lifting ∨ r.stage = .run .carrying
              ∨ r.stage = .run .returning ∨ r.stage = .run .lowering →
            exec .cancelOrder s = .next ((s.putOrder o { r with cancel := true }).requestDone 0x23 .cancelTaken {}))
        ∧ (r.kind = .fetch → r.stage = .run .holding →
            exec .cancelOrder s = .next
              (((s.putOrder o { r with cancel := true, stage := .run .returning }).giveCommand r.aisle
                (.travel (s.homePosition r.bin)) false).requestDone 0x23 .cancelTaken {}))
        ∧ (∀ st, r.stage = .run st → r.kind ≠ .fetch ∨ st = .handing ∨ st = .waitingLane ∨ st = .crossing →
            exec .cancelOrder s = .next (s.requestDone 0x23 .wrongStage {}))

/-- R58 and R89: RESUME ORDER and REVIVE SHUTTLE, once their checks pass, place a STATUS in the shuttle's slot and wait with BUSY
set, their operands latched; READ SHUTTLE answers from the record. R59: the end of the exchange of a RESUME ORDER, which refuses
it, or takes the order on by one of four courses (check 5 of R58 asked only of a command that is sent again: log entry 24). R89:
the end of that of a REVIVE SHUTTLE, by the shuttle's state that the answer leaves. Both answers show the state before the settling
of the same step: IDLE, and the stage the course enters (the model's choice, log entry 13). A result that an alarm or a sealing has
limited refuses both (R58, R85; log entry 16). -/
def Obligations.ResumeAndReviveWaitForStatus : Prop :=
  (∀ (s : State), s.windowFree = true →
    (31 < s.operands.cell 0 → exec .resumeOrder s = .next (s.requestDone 0x24 .badOperand {}))
    ∧ (∀ o : OrderNo, s.operands.cell 0 = o.val →
      (s.order? o = none → exec .resumeOrder s = .next (s.requestDone 0x24 .noRecord {}))
      ∧ ∀ r, s.order? o = some r →
        (∀ h, r.stage = .halted h → h.reason ≠ .fire → s.zoneState (zoneOf r.aisle) = .normal →
          exec .resumeOrder s = .next { (s.storeRequest 0x24).setSlot r.aisle (some .resume) with
            win.waiting := some ⟨.resumeOrder o, s.operands⟩ })
        ∧ ((∀ h, r.stage ≠ .halted h) ∨ (∃ h, r.stage = .halted h ∧ h.reason = .fire)
              ∨ s.zoneState (zoneOf r.aisle) ≠ .normal →
            exec .resumeOrder s = .next (s.requestDone 0x24 .wrongState {})))
    ∧ (5 < s.operands.cell 0 → exec .reviveShuttle s = .next (s.requestDone 0x2B .badOperand {})
        ∧ exec .readShuttle s = .next (s.requestDone 0x2A .badOperand {}))
    ∧ (∀ a : Aisle, s.operands.cell 0 = a.val →
      Judged s .reviveShuttle 0x2B
        [(decide ((s.shuttle a).state = .faulted ∨ (s.shuttle a).state = .offline), .wrongState),
         (!s.haltedOrder a, .wrongState),
         (decide (s.zoneState (zoneOf a) = .normal), .zoneLocked)]
        { (s.storeRequest 0x2B).setSlot a (some .hostRevival) with win.waiting := some ⟨.reviveShuttle a, s.operands⟩ }
      ∧ exec .readShuttle s = .next (s.requestDone 0x2A .ok
        { a0 := word ((s.shuttle a).state.code * 8192 + (s.shuttle a).silence * 2048
              + (match (s.shuttle a).command with | some c => c.mark.code | none => 0) * 512 + (s.shuttle a).faultCode.toNat)
          a1 := match (s.shuttle a).carried with | some b => word b.val | none => 0xFFFF
          a2 := bytePair (match (s.shuttle a).order with | some o => o.val | none => 0xFF)
            (match (s.shuttle a).command with | some c => c.motion.code | none => 0xFF)
          a3 := word (s.shuttle a).position.code })))
  ∧ (∀ (s : State) (x : Exchange), x.kind = .resume →
      let a := x.shuttle
      let f : State := { s with alc.exchange := none }
      (x.use = .full → s.endExchange x none = (f.silent a).endRequest .shuttleFaulted {})
      ∧ (∀ st : StatusAnswer, x.use = .full → st.motion = .fault →
          s.endExchange x (some (.status st)) = (State.heard a (.status st) f).endRequest .shuttleFaulted {})
      ∧ (∀ (st : StatusAnswer) (o : OrderNo) (q : Operands) (r : Order) (h : Restart), x.use = .full → st.motion ≠ .fault →
          s.win.waiting = some ⟨.resumeOrder o, q⟩ → s.order? o = some r → r.stage = .halted h →
        let u := State.heard a (.status st) f
        let r' : Order := { r with stage := .run h.stageAt }
        let v := (u.putOrder o r').putShuttle a { u.shuttle a with state := .busy, order := some o }
        let ended (t : State) (course : Nat) : State := t.endRequest .ok
          { a0 := match t.order? o with | some w => word w.stage.code | none => 0xFF, a1 := word course }
        let sentAgain := h.completionSeen = false ∧ (st.shows h.command = false ∨ st.motion = .idle)
        (h.completionSeen = true → s.endExchange x (some (.status st)) = ended (v.stageDone a o r' h.stageAt st.label) 0)
        ∧ (h.completionSeen = false → st.shows h.command = true → st.motion = .done →
            s.endExchange x (some (.status st)) = ended (v.stageDone a o r' h.stageAt st.label) 1)
        ∧ (sentAgain → h.command.atPort = true → s.zoneState 3 ≠ .normal →
            s.endExchange x (some (.status st)) = u.endRequest .zoneLocked {})
        ∧ (sentAgain → h.command.atPort = false ∨ s.zoneState 3 = .normal →
            s.endExchange x (some (.status st)) = ended (v.giveCommand a h.command false) 2)
        ∧ (h.completionSeen = false → st.shows h.command = true → st.motion = .moving →
            s.endExchange x (some (.status st)) = ended (v.putShuttle a { v.shuttle a with
              command := some ⟨h.command, .accepted, false⟩, deadline := some 120 }) 3))
      ∧ (∀ ans, x.use = .silenceAndPosition → s.endExchange x ans =
          (match ans with | some r => State.heard a r f | none => f.silent a).endRequest .wrongState {})
      ∧ (∀ ans, x.use = .discard → s.endExchange x ans = f.endRequest .wrongState {}))
  ∧ (∀ (s : State) (x : Exchange) (ans : Option LinkAnswer), x.kind = .hostRevival →
      let a := x.shuttle
      let f : State := { s with alc.exchange := none }
      let t := f.revive a ans
      (x.use = .full → (t.2.shuttle a).state = .idle → s.endExchange x ans = t.2.endRequest .ok
        { a0 := match t.1 with | .made e => word e.val | .waits => 0xFFFE | .none => 0xFFFF, a1 := word ShuttleState.idle.code })
      ∧ (x.use = .full → (t.2.shuttle a).state ≠ .idle → s.endExchange x ans = t.2.endRequest .shuttleFaulted
        { a0 := word (t.2.shuttle a).state.code, a1 := word (t.2.shuttle a).faultCode.toNat })
      ∧ (x.use = .silenceAndPosition → s.endExchange x ans =
          (match ans with | some r => State.heard a r f | none => f.silent a).endRequest .zoneLocked {})
      ∧ (x.use = .discard → s.endExchange x ans = f.endRequest .zoneLocked {}))
  ∧ (∀ m : Motion, m.atPort = true ↔ m = .handOff ∨ m = .takeOn)

/-- R62 and R63: AUDIT, CANCEL AUDIT and the cursor's walk. That a cursor step changes nothing while no sweep runs is the model's
reading (log entry 19), and that the cursor files no claim at a count of 4 or in quiet running is its choice (log entry 35). -/
def Obligations.AuditSweepWalksTheBins : Prop :=
  ∀ (s : State),
    (s.windowFree = true →
      Judged s .audit 0x25 [(!s.ou.sweep, .auditRunning)]
        (State.requestDone 0x25 .ok {} { s with ou.sweep := true, ou.cursor := some 0 })
      ∧ Judged s .cancelAudit 0x26 [(s.ou.sweep, .wrongState)]
        (State.requestDone 0x26 .ok {} { s with
          ou.sweep := false, ou.cursor := none, ou.claims := s.ou.claims.filter (fun c => !decide (c.rank = 10)) }))
    ∧ (s.phase = .running →
      (s.ou.sweep = false ∨ s.claims 10 = true → exec .auditCursorStep s = .next s)
      ∧ (s.ou.sweep = true → s.claims 10 = false →
        (∀ b : BinNo, s.ou.cursor = some b.val →
          (s.auditable b = false → exec .auditCursorStep s = .next (State.settle { s with ou.cursor := some (b.val + 1) }))
          ∧ (s.auditable b = true → 4 ≤ s.ou.auditCount ∨ s.ou.quiet ≠ .active → exec .auditCursorStep s = .next s)
          ∧ (s.auditable b = true → s.ou.auditCount < 4 → s.ou.quiet = .active →
            (s.freeEntry? = none → exec .auditCursorStep s = .next (s.fileClaim (.audit b)))
            ∧ ∀ e, s.freeEntry? = some e →
              let u := s.makeAuditProbe e b
              exec .auditCursorStep s = .next u.settle
              ∧ u.order? e = some { kind := .probe, source := .audit, bin := b, aisle := s.homeAisle b, priority := 0
                                    stage := .run .queued, dest := none, cancel := false, pendingOutcome := none }
              ∧ u.ou.auditCount = s.ou.auditCount + 1 ∧ u.ou.cursor = some (b.val + 1)))
        ∧ (s.ou.cursor = some 2048 → exec .auditCursorStep s = .next s.settle)))
    ∧ (∀ b, s.auditable b = true ↔ ∃ r, s.binRec? b = some r ∧ r.place = .unverified ∧ r.holder = none
        ∧ s.zoneState (zoneOf (s.homeAisle b)) = .normal)
    ∧ (s.ou.sweep = true → s.ou.cursor = some 2048 → s.ou.auditCount = 0 →
        s.tryAuditEnd.ou.sweep = false ∧ s.tryAuditEnd.ou.cursor = none ∧ s.tryAuditEnd.pendingCause .auditDone = true)

/-- R65 to R67: QUIESCE and WAKE always answer OK; the wing becomes QUIET when the three conditions hold; the move to ACTIVE makes each
PARKED shuttle of a NORMAL zone IDLE; the need of the return station wakes it out of QUIET only, with WOKEN latched. -/
def Obligations.QuietRunningStartsAndEnds : Prop :=
  ∀ (s : State),
    (s.windowFree = true →
      (s.ou.quiet = .active → exec .quiesce s =
        .next ((State.settle { s.storeRequest 0x28 with ou.quiet := .quiescing }).endRequest .ok {}))
      ∧ (s.ou.quiet ≠ .active → exec .quiesce s = .next (s.requestDone 0x28 .ok {}))
      ∧ (s.ou.quiet ≠ .active → exec .wake s = .next ((((s.storeRequest 0x29).becomeActive).settle).endRequest .ok {}))
      ∧ (s.ou.quiet = .active → exec .wake s = .next (s.requestDone 0x29 .ok {})))
    ∧ (s.atQuiet = true ↔ (∀ e r, s.order? e = some r → r.isFinished = true)
        ∧ (∀ a, (s.shuttle a).state = .parked ∨ (s.shuttle a).state = .offline ∨ (s.shuttle a).state = .faulted
            ∨ (s.shuttle a).state = .caught)
        ∧ s.lc.crossing = none)
    ∧ (s.ou.quiet = .quiescing → s.atQuiet = true →
        s.tryQuiet.ou.quiet = .quiet ∧ s.tryQuiet.pendingCause .quietEntered = true)
    ∧ s.becomeActive.ou.quiet = .active
    ∧ (∀ a, (s.becomeActive.shuttle a).state =
        if (s.shuttle a).state = .parked ∧ s.zoneState (zoneOf a) = .normal then .idle else (s.shuttle a).state)
    ∧ (s.ou.quiet = .quiet → s.wakeByNeed = s.becomeActive.latch .woken)
    ∧ (s.ou.quiet ≠ .quiet → s.wakeByNeed = s)

/-! ## Shuttles and the aisle link (Chapter 4) -/

/-- R74, R75, R184, R185: a message is its address character, with mark bit 1, and data characters: code, length, arguments and a check
that brings their sum to 0 modulo 256; TRAVEL's position goes high byte first, as in the example of R184; which characters make a
valid answer, with the length of its code and a code that fits the message, and how the fields of a STATUS answer are read. -/
def Obligations.LinkMessagesAreBuiltAndRead : Prop :=
  ((∀ (k : ExchangeKind) (a : Aisle),
      let code : Nat := match k with | .command m => m.code | _ => 0x10
      let args : List Nat := match k with | .command (.travel t) => [t / 256 % 256, t % 256] | _ => []
      ∃ check : Nat, check < 256 ∧ (code + args.length + args.sum + check) % 256 = 0
        ∧ k.chars a = { data := byte (a.val + 1), mark := true, stopMarking := true } ::
            (([code, args.length] ++ args ++ [check]).map fun n => { data := byte n, mark := false, stopMarking := true }))
    ∧ ((ExchangeKind.command (.travel 300)).chars 3).map (·.data) = [0x04, 0x01, 0x02, 0x01, 0x2C, 0xD0])
  ∧ ((∀ (k : ExchangeKind) (chars : List LinkChar), (∃ c ∈ chars, c.mark = true ∨ c.stopMarking = false) →
      readAnswer? k chars = none)
    ∧ (∀ (k : ExchangeKind) (bytes : List Byte), (bytes.map (·.toNat)).sum % 256 ≠ 0 →
        readAnswer? k (bytes.map fun b => ⟨b, false, true⟩) = none)
    ∧ (∀ (k : ExchangeKind) (chars : List LinkChar), answerLength (firstByte chars) ≠ some chars.length →
        readAnswer? k chars = none)
    ∧ (answerLength 0x80 = some 2 ∧ answerLength 0x81 = some 3 ∧ answerLength 0x90 = some 9
        ∧ ∀ n, n ≠ 0x80 → n ≠ 0x81 → n ≠ 0x90 → answerLength n = none)
    ∧ (∀ (m : Motion) (chars : List LinkChar), firstByte chars = 0x90 → readAnswer? (.command m) chars = none)
    ∧ (∀ (k : ExchangeKind) (chars : List LinkChar), (∀ m, k ≠ .command m) → firstByte chars = 0x80 ∨ firstByte chars = 0x81 →
        readAnswer? k chars = none)
    ∧ (∀ (m : Motion) (b : Byte), b.toNat = 0x80 → readAnswer? (.command m) [⟨0x80, false, true⟩, ⟨b, false, true⟩] = some .ack)
    ∧ (∀ (m : Motion) (r b : Byte), (0x81 + r.toNat + b.toNat) % 256 = 0 →
        readAnswer? (.command m) [⟨0x81, false, true⟩, ⟨r, false, true⟩, ⟨b, false, true⟩] = some (.refused r))
    ∧ (∀ (k : ExchangeKind) (m l lh ll ph pl f c : Byte), (∀ mo, k ≠ .command mo) →
        (0x90 + m.toNat + l.toNat + lh.toNat + ll.toNat + ph.toNat + pl.toNat + f.toNat + c.toNat) % 256 = 0 →
        readAnswer? k ([0x90, m, l, lh, ll, ph, pl, f, c].map fun b => ⟨b, false, true⟩) = some (.status
          { motion := readMotion m.toNat, last := readLast l.toNat, label := readLabel (lh.toNat * 256 + ll.toNat)
            position := readPosition (ph.toNat * 256 + pl.toNat), code := f }))
    ∧ (∀ n, readMotion n = if n = 0 then .idle else if n = 1 then .moving else if n = 2 then .done else .fault)
    ∧ (∀ n, readLast n = if 1 ≤ n ∧ n ≤ 8 then some n else none)
    ∧ (∀ b : BinNo, readLabel b.val = .bin b) ∧ readLabel 0x800 = .none ∧ (∀ n, 0x800 < n → readLabel n = .unreadable)
    ∧ (∀ n, n < 512 → readPosition n = some (.rack n)) ∧ readPosition 0x200 = some .port ∧ readPosition 0x201 = some .park
    ∧ (∀ n, 0x201 < n → readPosition n = none))

/-- R76, R78 and R79: LINK_GRANT begins one exchange when the link is free: of the first class that has something to send, the lowest
address in class 1 and the first after the last one granted in the others; it begins none exactly when no class has anything to
send. What each class sends: fire PARKs, other motion commands, polls of BUSY shuttles with the STATUS messages that wait in
slots, and due polls of OFFLINE shuttles; a SEALED zone's shuttle and a CAUGHT one send nothing. The exchange has the message of
its slot or a poll, moves the rotation of its class, and R73: its characters go out on LTX bit by bit with LDIR driven, which is
then released (the levels: log entry 9). R89: a REVIVE SHUTTLE whose shuttle is no longer FAULTED or OFFLINE when its turn comes
is answered and gives up its turn (log entry 17). -/
def Obligations.LinkGrantBeginsOneExchange : Prop :=
  ∀ (s : State),
    (s.phase = .running →
      (s.alc.exchange.isSome = true → exec .linkGrant s = .next s)
      ∧ (s.alc.exchange = none → (∀ c a, s.sends c a = false) → exec .linkGrant s = .next s)
      ∧ (s.alc.exchange = none → ∀ c a, s.nextGrant? grantClasses = some (c, a) → s.staleRevival a = false →
        exec .linkGrant s = .next (s.beginExchange c a))
      ∧ (s.alc.exchange = none → ∀ c a, s.nextGrant? grantClasses = some (c, a) → s.staleRevival a = true →
        exec .linkGrant s = .next (((s.setSlot a none).endRequest .ok
          { a0 := 0xFFFF, a1 := word (s.shuttle a).state.code }).settle.grantNext)))
    ∧ (∀ a, s.staleRevival a = true ↔ s.slot a = some .hostRevival ∧ (s.shuttle a).state ≠ .faulted
        ∧ (s.shuttle a).state ≠ .offline)
    ∧ ((∀ c a, s.nextGrant? grantClasses = some (c, a) → s.grantNext = s.beginExchange c a)
      ∧ (s.nextGrant? grantClasses = none → s.grantNext = s))
    ∧ (s.nextGrant? grantClasses = none ↔ ∀ c a, s.sends c a = false)
    ∧ (∀ c a, s.nextGrant? grantClasses = some (c, a) → s.sends c a = true
      ∧ (c = .one → ∀ a', a' < a → s.sends .one a' = false)
      ∧ (c = .two → (∀ a', s.sends .one a' = false)
          ∧ ∀ a', s.sends .two a' = true → a - s.alc.last2 - 1 ≤ a' - s.alc.last2 - 1)
      ∧ (c = .three → (∀ a', s.sends .one a' = false ∧ s.sends .two a' = false)
          ∧ ∀ a', s.sends .three a' = true → a - s.alc.last3 - 1 ≤ a' - s.alc.last3 - 1)
      ∧ (c = .four → (∀ a', s.sends .one a' = false ∧ s.sends .two a' = false ∧ s.sends .three a' = false)
          ∧ ∀ a', s.sends .four a' = true → a - s.alc.last4 - 1 ≤ a' - s.alc.last4 - 1))
    ∧ (∀ a : Aisle,
      let open' := s.zoneState (zoneOf a) ≠ .sealed ∧ (s.shuttle a).state ≠ .caught
      (s.sends .one a = true ↔ open' ∧ ∃ m, s.slot a = some (.command m true))
      ∧ (s.sends .two a = true ↔ open' ∧ ∃ m, s.slot a = some (.command m false))
      ∧ (s.sends .three a = true ↔ open' ∧ (s.slot a = some .revival ∨ s.slot a = some .hostRevival ∨ s.slot a = some .resume
          ∨ (s.slot a = none ∧ (s.shuttle a).state = .busy)))
      ∧ (s.sends .four a = true ↔ open' ∧ s.slot a = none ∧ (s.shuttle a).state = .offline ∧ (s.shuttle a).pollWait = none
          ∧ s.zoneAlarm (zoneOf a) = false ∧ ∀ o r h, s.currentOrder? a = some (o, r) → r.stage ≠ .halted h))
    ∧ (∀ (c : GrantClass) (a : Aisle),
      let t := s.beginExchange c a
      let kind : ExchangeKind := match c, s.slot a with
        | .four, _ => .offlinePoll
        | _, some (.command m _) => .command m
        | _, some .revival => .revival
        | _, some .hostRevival => .hostRevival
        | _, some .resume => .resume
        | _, none => .busyPoll
      t.alc.exchange = some { shuttle := a, kind := kind, use := .full, sent := kind.chars a }
      ∧ t.slot a = none ∧ (∀ a', a' ≠ a → t.slot a' = s.slot a')
      ∧ t.alc.last2 = (if c = .two then a else s.alc.last2) ∧ t.alc.last3 = (if c = .three then a else s.alc.last3)
      ∧ t.alc.last4 = (if c = .four then a else s.alc.last4)
      ∧ (∀ a', t.shuttle a' = if c = .four ∧ a' = a then { s.shuttle a with pollWait := some 2 } else s.shuttle a')
      ∧ t.ou = s.ou ∧ t.tab = s.tab ∧ t.win = s.win
      ∧ t.alc.line = (((kind.chars a).flatMap fun ch =>
          false :: ([0, 1, 2, 3, 4, 5, 6, 7].map fun n => ch.data.getLsbD n) ++ [ch.mark, ch.stopMarking]).map
            fun bit => { ldir := true, ltx := bit }) ++ [{ ldir := false, ltx := true }]
      ∧ t.ldir = false ∧ t.ltx = true)

/-- R76: an exchange ends with the valid answer its characters make, or with none; a character that belongs to no answer is
discarded (R73). That the three ends of an exchange change nothing when none is in progress is the model's reading (log entry 19).
That RECEIVED_CHARACTER_DISCARDED discards in every state, one whose exchange waits for its answer too, and that an ANSWER_RECEIVED
whose characters make no answer ends the exchange with none, is its choice (log entry 20). -/
def Obligations.ExchangesEndByTheirAnswer : Prop :=
  ∀ (s : State) (chars : List LinkChar) (ch : LinkChar),
    exec (.receivedCharacterDiscarded ch) s = .next s
    ∧ (s.phase = .running →
      (s.alc.exchange = none → exec (.answerReceived chars) s = .next s ∧ exec .answerInvalid s = .next s
        ∧ exec .replyWindowExpiry s = .next s)
      ∧ ∀ x, s.alc.exchange = some x →
        (∀ ans, readAnswer? x.kind chars = some ans →
          exec (.answerReceived chars) s = .next ((s.endExchange x (some ans)).settle))
        ∧ (readAnswer? x.kind chars = none → exec (.answerReceived chars) s = .next ((s.endExchange x none).settle))
        ∧ exec .answerInvalid s = .next ((s.endExchange x none).settle)
        ∧ exec .replyWindowExpiry s = .next ((s.endExchange x none).settle)
        ∧ (∀ ans, (s.endExchange x ans).alc.exchange = none))

/-- R80: the answer to a motion command's exchange, in a zone that is not in ALARM: ACK makes the command ACCEPTED and starts the
deadline of 120 s, but for a fire PARK; REFUSED is a fault with the reason as its code; no answer leaves it UNCONFIRMED. R83: a
fault makes the shuttle FAULTED with its fault code, clears its command, stops its deadline and withdraws its message, halts its
running order with reason FAULT and leaves a HALTED one, and captures SHUTTLE_FAULT; a request that waited on the message ends
SHUTTLE_FAULTED (log entry 15). R85: in a zone in ALARM the answer is applied in the same way, and a shuttle still BUSY is then given
its fire PARK. -/
def Obligations.CommandAnswerDecidesTheCommand : Prop :=
  (∀ (s : State) (x : Exchange) (m : Motion) (c : InFlight), x.use = .full → x.kind = .command m →
    s.zoneAlarm (zoneOf x.shuttle) = false → (s.shuttle x.shuttle).command = some c →
    (s.endExchange x (some .ack)).shuttle x.shuttle = { s.shuttle x.shuttle with
        silence := 0, command := some { c with mark := .accepted }, deadline := if c.fire then none else some 120 }
    ∧ (∀ reason, ((s.endExchange x (some (.refused reason))).shuttle x.shuttle) = { s.shuttle x.shuttle with
        silence := 0, state := .faulted, faultCode := reason, command := none, deadline := none }
      ∧ (s.endExchange x (some (.refused reason))).slot x.shuttle = none)
    ∧ ((s.shuttle x.shuttle).silence + 1 < 3 → (s.endExchange x none).shuttle x.shuttle = { s.shuttle x.shuttle with
        silence := (s.shuttle x.shuttle).silence + 1, command := some { c with mark := .unconfirmed } }))
  ∧ (∀ (s : State) (x : Exchange) (m : Motion) (ans : Option LinkAnswer), x.use = .full → x.kind = .command m →
      let a := x.shuttle
      let f : State := { s with alc.exchange := none }
      let u : State := match ans with
        | none => State.silent a (f.putShuttle a { s.shuttle a with
            command := (s.shuttle a).command.map fun c => { c with mark := .unconfirmed } })
        | some (.refused reason) => (State.heard a (.refused reason) f).faultShuttle a reason
        | some other => (State.heard a other f).acceptCommand a
      let parks := (u.shuttle a).state = .busy ∧ ∀ c, (u.shuttle a).command = some c → c.fire = false
      (s.zoneAlarm (zoneOf a) = false ∨ ¬ parks → s.endExchange x ans = u)
      ∧ (s.zoneAlarm (zoneOf a) = true → parks → s.endExchange x ans =
          (u.putShuttle a { u.shuttle a with command := some ⟨.park, .sent, true⟩, deadline := none }).setSlot a
            (some (.command .park true))))
  ∧ (∀ (s : State) (a : Aisle), s.acceptCommand a = s.putShuttle a { s.shuttle a with
        command := (s.shuttle a).command.map fun c => { c with mark := .accepted }
        deadline := match (s.shuttle a).command with | some c => if c.fire then none else some 120 | none => none })
  ∧ (∀ (s : State) (a : Aisle) (code : Byte),
      let t := s.faultShuttle a code
      t.shuttle a = { s.shuttle a with state := .faulted, faultCode := code, command := none, deadline := none }
      ∧ t.slot a = none
      ∧ (∀ a', a' ≠ a → t.shuttle a' = s.shuttle a' ∧ t.slot a' = s.slot a')
      ∧ (∀ o r st m, s.currentOrder? a = some (o, r) → r.stage = .run st → s.stageCommand? r st = some m →
          t.order? o = some { r with stage := .halted (Restart.mk st m (decide (st = .holding)) .fault) })
      ∧ (∀ o r h, s.currentOrder? a = some (o, r) → r.stage = .halted h → t.order? o = some r)
      ∧ (∀ o, (∀ r, s.currentOrder? a ≠ some (o, r)) → t.order? o = s.order? o)
      ∧ t.tab = s.tab
      ∧ t.au.fault = some (captured
          { kind := .shuttleFault, shuttle := some a, order := (s.currentOrder? a).map (·.1)
            bin := match s.currentOrder? a with | some (_, r) => some r.bin | none => (s.shuttle a).carried
            stage := (s.currentOrder? a).bind fun q => q.2.stageReached
            code := some code } s.au.fault)
      ∧ ((s.slot a ≠ some .hostRevival → s.slot a ≠ some .resume → t.win = s.win)
        ∧ (s.slot a = some .resume → t.win = (s.endRequest .shuttleFaulted {}).win)
        ∧ (s.slot a = some .hostRevival → t.win = (s.endRequest .shuttleFaulted
            { a0 := word ShuttleState.faulted.code, a1 := word code.toNat }).win)))

/-- R79 to R81: the answer of a poll of a BUSY shuttle. An ACCEPTED command that the answer shows MOVING goes on and one it shows DONE
completes; FAULT faults with the answer's code, and any other answer with code 0. An UNCONFIRMED command becomes ACCEPTED, or
completes, or is placed again marked SENT; R85: but an UNCONFIRMED HAND_OFF or TAKE_ON that was not taken is withdrawn, and not sent
again, while zone 3 is not NORMAL (that the command of a TAKE_ON is cleared too: log entry 22). With no command in flight, or one
marked SENT, only FAULT matters (for SENT: log entry 18). At completion the command is cleared and its deadline stopped, and the order's stage moves on; a PARK leaves the shuttle
PARKED when it was a fire PARK or quiet running goes on, and IDLE without an order otherwise (R84). -/
def Obligations.PollAnswerDrivesTheMotion : Prop :=
  (∀ (s : State) (x : Exchange) (st : StatusAnswer), x.use = .full → x.kind = .busyPoll →
    let a := x.shuttle
    let h := State.heard a (.status st) { s with alc.exchange := none }
    let t := s.endExchange x (some (.status st))
    (h.shuttle a).silence = 0
    ∧ (∀ p, st.position = some p → (h.shuttle a).position = p)
    ∧ (st.position = none → (h.shuttle a).position = (s.shuttle a).position)
    ∧ (st.motion = .fault → t = h.faultShuttle a st.code)
    ∧ (st.motion ≠ .fault → (s.shuttle a).command = none → t = h)
    ∧ ∀ c, (s.shuttle a).command = some c →
      (c.mark = .accepted → st.motion ≠ .fault →
        (st.shows c.motion = true → st.motion = .moving → t = h)
        ∧ (st.shows c.motion = true → st.motion = .done → t = h.completeCommand a c st.label)
        ∧ (st.shows c.motion = false ∨ st.motion = .idle → t = h.faultShuttle a 0))
      ∧ (c.mark = .unconfirmed → st.motion ≠ .fault →
        (st.shows c.motion = true → st.motion = .moving → t = h.acceptCommand a)
        ∧ (st.shows c.motion = true → st.motion = .done → t = h.completeCommand a c st.label)
        ∧ (st.shows c.motion = false ∨ st.motion = .idle →
          (c.motion.atPort = true → s.zoneState 3 ≠ .normal → t = h.withdrawPortCommand a
            ∧ t.slot a = none ∧ (t.shuttle a).command = none ∧ (t.shuttle a).deadline = none)
          ∧ (c.motion.atPort = false ∨ s.zoneState 3 = .normal →
            t.slot a = some (.command c.motion c.fire) ∧ (t.shuttle a).command = some { c with mark := .sent })))
      ∧ (st.shows c.motion = true ↔ st.last = some c.motion.code
        ∧ (st.motion = .done → (∀ n, c.motion = .travel n → st.position = some (.rack n))
          ∧ (c.motion = .park → st.position = some .park)))
      ∧ (c.mark = .sent → st.motion ≠ .fault → t = h))
  ∧ (∀ (s : State) (a : Aisle) (c : InFlight) (label : Label),
      let u := s.putShuttle a { s.shuttle a with command := none, deadline := none }
      (c.motion ≠ .park → ∀ o r, s.currentOrder? a = some (o, r) →
        (∀ st, r.stage = .run st → s.completeCommand a c label = u.stageDone a o r st label)
        ∧ ((∀ st, r.stage ≠ .run st) → s.completeCommand a c label = u))
      ∧ (c.motion ≠ .park → s.currentOrder? a = none → s.completeCommand a c label = u)
      ∧ (c.motion = .park → c.fire = true ∨ s.ou.quiet ≠ .active → s.completeCommand a c label = s.putShuttle a
          { s.shuttle a with state := .parked, command := none, deadline := none })
      ∧ (c.motion = .park → c.fire = false → s.ou.quiet = .active → s.completeCommand a c label = s.putShuttle a
          { s.shuttle a with state := .idle, order := none, command := none, deadline := none }))

/-- R77 and R82: an exchange that draws no answer raises the silence count, and at 3 a shuttle that is neither OFFLINE nor CAUGHT
becomes OFFLINE, its command, its waiting message and its deadline withdrawn, its running order halted with reason SILENT, and
LINK_SILENT captured; the expiry of the deadline of an accepted motion makes the shuttle FAULTED with its last fault code as it was,
its order halted with reason FAULT, and MOTION_OVERDUE captured, and a result in progress counts for the silence and the position
only. Both captures carry the fields of R83. R81: a poll of a BUSY shuttle that draws no answer is such a silence; R82 and R85: what
becomes of a result of a poll or of a motion command that is limited to the silence and the position, or is to be discarded. That a
silence raises the count of an OFFLINE shuttle that stands below 3 is the model's choice (log entry 39). That an expiry with no
deadline changes nothing is the model's reading (log entry 19). -/
def Obligations.SilenceAndOverrunStopTheShuttle : Prop :=
  (∀ (s : State) (a : Aisle),
      ((s.shuttle a).silence < 2 ∨ (s.shuttle a).state = .offline ∨ (s.shuttle a).state = .caught →
        (s.silent a).shuttle a = { s.shuttle a with silence := min 3 ((s.shuttle a).silence + 1) }
        ∧ (s.silent a).slot a = s.slot a ∧ (s.silent a).au.fault = s.au.fault)
      ∧ (2 ≤ (s.shuttle a).silence → (s.shuttle a).state ≠ .offline → (s.shuttle a).state ≠ .caught →
        (s.silent a).shuttle a = { s.shuttle a with silence := 3, state := .offline, command := none, deadline := none }
        ∧ (s.silent a).slot a = none
        ∧ (s.silent a).au.fault = some (captured
            { kind := .linkSilent, shuttle := some a, order := (s.currentOrder? a).map (·.1)
              bin := match s.currentOrder? a with | some (_, r) => some r.bin | none => (s.shuttle a).carried
              stage := (s.currentOrder? a).bind fun q => q.2.stageReached
              code := none } s.au.fault)
        ∧ (∀ o r st m, s.currentOrder? a = some (o, r) → r.stage = .run st → s.stageCommand? r st = some m →
            (s.silent a).order? o = some { r with stage := .halted (Restart.mk st m (decide (st = .holding)) .silent) })
        ∧ (∀ o r h, s.currentOrder? a = some (o, r) → r.stage = .halted h → (s.silent a).order? o = some r)))
  ∧ (∀ (s : State) (a : Aisle), s.phase = .running →
      ((s.shuttle a).deadline = none → exec (.motionDeadlineExpiry a) s = .next s)
      ∧ ∀ n, (s.shuttle a).deadline = some n →
        let u := s.overrun a
        exec (.motionDeadlineExpiry a) s = .next u.settle
        ∧ u.shuttle a = { s.shuttle a with state := .faulted, command := none, deadline := none }
        ∧ (∀ o r st m, s.currentOrder? a = some (o, r) → r.stage = .run st → s.stageCommand? r st = some m → st ≠ .holding →
            u.order? o = some { r with stage := .halted (Restart.mk st m false .fault) })
        ∧ (∀ o r h, s.currentOrder? a = some (o, r) → r.stage = .halted h → u.order? o = some r)
        ∧ u.au.fault = some (captured
            { kind := .motionOverdue, shuttle := some a, order := (s.currentOrder? a).map (·.1)
              bin := match s.currentOrder? a with | some (_, r) => some r.bin | none => (s.shuttle a).carried
              stage := (s.currentOrder? a).bind fun q => q.2.stageReached
              code := none } s.au.fault)
        ∧ (∀ x, s.alc.exchange = some x → x.shuttle = a → x.use = .full →
            u.alc.exchange = some { x with use := .silenceAndPosition }))
  ∧ (∀ (s : State) (x : Exchange), x.kind = .busyPoll ∨ (∃ m, x.kind = .command m) →
      let a := x.shuttle
      let f : State := { s with alc.exchange := none }
      (x.use = .full → x.kind = .busyPoll → s.endExchange x none = f.silent a)
      ∧ (x.use = .silenceAndPosition → s.endExchange x none = f.silent a
        ∧ ∀ ans, s.endExchange x (some ans) = State.heard a ans f)
      ∧ (x.use = .discard → ∀ ans, s.endExchange x ans = f))

/-- R79 and R152: the end of the wait between offline polls makes the poll due, and the end of the wait of a recovery revival places
its STATUS again while the shuttle is PARKED with an empty slot. That the event changes nothing with no such wait is the model's
reading (log entry 19). -/
def Obligations.PollAndRetryWaitsEnd : Prop :=
  ∀ (s : State) (a : Aisle), s.phase = .running →
    exec (.offlinePollDue a) s = .next (s.putShuttle a { s.shuttle a with pollWait := none })
    ∧ ((s.shuttle a).revivalRetry = none → exec (.revivalRetryDue a) s = .next s)
    ∧ ((s.shuttle a).revivalRetry.isSome = true →
        let u := s.putShuttle a { s.shuttle a with revivalRetry := none }
        ((s.shuttle a).state = .parked → s.slot a = none →
          exec (.revivalRetryDue a) s = .next ((u.setSlot a (some .revival)).settle))
        ∧ ((s.shuttle a).state ≠ .parked ∨ s.slot a ≠ none → exec (.revivalRetryDue a) s = .next u.settle))

/-- R88: the reading of a revival answer, by its motion state and by what the shuttle holds; R153 for a label that is not accepted,
whose capture names the holding order where that order alone is why it is not (the model's reading of R153's table from the top, log
entry 30). A bin recorded on board that the answer does not show becomes UNVERIFIED in each case. What was made of the RESTORE is
told to the REVIVE SHUTTLE that asked. The end of the exchange of a recovery revival (R152) and of an offline poll (R79) applies
that reading; a recovery revival that finds the shuttle MOVING starts its 2 s (log entry 23), a result that an alarm has limited
counts for the silence count and the position alone (R144; for an offline poll log entry 16; that the third silence makes a PARKED
shuttle OFFLINE then too is the model's choice, log entry 40), and one that is discarded at a sealing changes nothing (R85). -/
def Obligations.RevivalReadsWhatTheShuttleHolds : Prop :=
  (∀ (s : State) (a : Aisle),
    ((s.revive a none).2 = s.putShuttle a { s.shuttle a with state := .offline, silence := 3 })
    ∧ ∀ st : StatusAnswer,
      let h := s.heard a (.status st)
      let t := (s.revive a (some (.status st))).2
      (st.motion = .moving → t = h)
      ∧ (st.motion = .fault → t.shuttle a = { h.shuttle a with state := .faulted, faultCode := st.code }
          ∧ t.au.fault = some (captured
            { kind := .shuttleFault, shuttle := some a, order := (s.currentOrder? a).map (·.1)
              bin := match s.currentOrder? a with | some (_, r) => some r.bin | none => (s.shuttle a).carried
              stage := (s.currentOrder? a).bind fun q => q.2.stageReached
              code := some st.code } s.au.fault))
      ∧ (st.motion = .idle ∨ st.motion = .done →
        (st.last = some 4 ∨ st.label = .none →
          (t.shuttle a).state = .idle ∧ (t.shuttle a).carried = none ∧ (t.shuttle a).order = none ∧ t.au.fault = s.au.fault
          ∧ (∀ b, (s.shuttle a).carried = some b → (t.binRec? b).map (·.place) = (s.binRec? b).map fun _ => Place.unverified))
        ∧ (st.last ≠ some 4 → st.label = .unreadable →
          (t.shuttle a).state = .faulted ∧ (t.shuttle a).carried = none
          ∧ (∀ b, (s.shuttle a).carried = some b → (t.binRec? b).map (·.place) = (s.binRec? b).map fun _ => Place.unverified)
          ∧ t.au.fault = some (captured
            { kind := .labelUnreadable, shuttle := some a, order := none, bin := none, stage := none, code := none } s.au.fault))
        ∧ (∀ b r, st.last ≠ some 4 → st.label = .bin b → s.binRec? b = some r → s.homeAisle b = a →
            r.place.onBoardFrom a = true → r.holder = none →
          (t.shuttle a).state = .idle ∧ (t.shuttle a).carried = some b
          ∧ (t.binRec? b).map (·.place) = some (.onShuttle a)
          ∧ (∀ b', (s.shuttle a).carried = some b' → b' ≠ b →
              (t.binRec? b').map (·.place) = (s.binRec? b').map fun _ => Place.unverified)
          ∧ (∀ e, s.freeEntry? = some e → (s.revive a (some (.status st))).1 = .made e ∧ t.order? e = some
              { kind := .restore, source := .recovery, bin := b, aisle := a, priority := 3, stage := .run .queued, dest := none
                cancel := false, pendingOutcome := none })
          ∧ (s.freeEntry? = none → (s.revive a (some (.status st))).1 = .waits ∧ (Claim.restore a b) ∈ t.ou.claims))
        ∧ (∀ b r o, st.last ≠ some 4 → st.label = .bin b → s.binRec? b = some r → s.homeAisle b = a →
            r.place.onBoardFrom a = true → r.holder = some o → s.isRestoreFor o a b = true →
          (t.shuttle a).state = .idle ∧ (t.shuttle a).carried = some b ∧ (t.binRec? b).map (·.place) = some (.onShuttle a)
          ∧ (∀ b', (s.shuttle a).carried = some b' → b' ≠ b →
              (t.binRec? b').map (·.place) = (s.binRec? b').map fun _ => Place.unverified)
          ∧ t.ou = s.ou ∧ (s.revive a (some (.status st))).1 = .none)
        ∧ (∀ b r o, st.last ≠ some 4 → st.label = .bin b → s.binRec? b = some r → s.homeAisle b = a →
            r.place.onBoardFrom a = true → r.holder = some o → s.isRestoreFor o a b = false →
          t.au.fault = some (captured
            { kind := .labelMismatch, shuttle := some a, order := some o, bin := some b, stage := none, code := none } s.au.fault))
        ∧ (∀ b, st.last ≠ some 4 → st.label = .bin b →
            (∀ r, s.binRec? b = some r → s.homeAisle b ≠ a ∨ r.place.onBoardFrom a = false
              ∨ ∃ o, r.holder = some o ∧ s.isRestoreFor o a b = false) →
          (t.shuttle a).state = .faulted ∧ (t.shuttle a).carried = none
          ∧ (∀ b', (s.shuttle a).carried = some b' → b' ≠ b →
              (t.binRec? b').map (·.place) = (s.binRec? b').map fun _ => Place.unverified)
          ∧ (s.homeAisle b = a → s.binRec? b ≠ none → t.binRec? b = s.binRec? b)
          ∧ (∀ r, s.binRec? b = some r → s.homeAisle b ≠ a → t.binRec? b = some { r with
              place := if (s.shuttle a).carried = some b ∨ (r.place = .home ∧ r.holder = none) then .unverified else r.place })
          ∧ ∃ c, c.kind = .labelMismatch ∧ c.shuttle = some a ∧ c.bin = some b ∧ c.stage = none ∧ c.code = none
              ∧ t.au.fault = some (captured c s.au.fault))))
  ∧ (∀ (s : State) (x : Exchange) (ans : Option LinkAnswer), x.kind = .revival ∨ x.kind = .offlinePoll →
      let a := x.shuttle
      let f : State := { s with alc.exchange := none }
      let t := (f.revive a ans).2
      (x.use = .full → x.kind = .offlinePoll → s.endExchange x ans = t)
      ∧ (x.use = .full → x.kind = .revival →
        (∀ st, ans = some (.status st) → st.motion = .moving →
          s.endExchange x ans = t.putShuttle a { t.shuttle a with revivalRetry := some 2 })
        ∧ ((∀ st, ans = some (.status st) → st.motion ≠ .moving) → s.endExchange x ans = t))
      ∧ (x.use = .silenceAndPosition → s.endExchange x ans =
          match ans with | some r => State.heard a r f | none => f.silent a)
      ∧ (x.use = .discard → s.endExchange x ans = f))

/-- R51, R54, R86 and R87: the label read at the completion of a LIFT or a PROBE, for an order without the cancel mark; R83: an
unreadable or a wrong label captures LABEL_UNREADABLE or LABEL_MISMATCH with the shuttle, the order, its bin and the stage, and no
other label captures anything. R51, R53, R54 and R56: what the completion of every other command of an order does, a FETCH under the
cancel mark turning back from SEEKING, LIFTING, CARRYING or HOLDING, and R71: the bin's place and the carried bin with it. -/
def Obligations.LabelChecksSettleTheBin : Prop :=
  (∀ (s : State) (a : Aisle) (o : OrderNo) (r : Order) (rec : BinRec), s.order? o = some r → r.cancel = false →
    s.binRec? r.bin = some rec →
    let check (kind : FaultKind) (stage : RunStage) : Capture :=
      { kind := kind, shuttle := some a, order := some o, bin := some r.bin, stage := some stage, code := none }
    (∀ label, (s.stageDone a o r .probing label).order? o = some { r with pendingOutcome := none, stage := .finished (match label with
          | .bin x => if x = r.bin then .found else .mismatch
          | .none => .absent
          | .unreadable => .unreadable) }
      ∧ (s.stageDone a o r .probing label).binRec? r.bin = some { rec with holder := none, place := (match label with
          | .bin x => if x = r.bin then .home else .missing
          | .none => .missing
          | .unreadable => .unverified) }
      ∧ ((s.stageDone a o r .probing label).shuttle a).state = .idle
      ∧ (s.stageDone a o r .probing label).au.fault = match label with
          | .bin x => if x = r.bin then s.au.fault else some (captured (check .labelMismatch .probing) s.au.fault)
          | .none => s.au.fault
          | .unreadable => some (captured (check .labelUnreadable .probing) s.au.fault))
    ∧ (let t := s.stageDone a o r .lifting (.bin r.bin)
      t.order? o = some { r with stage := .run .carrying } ∧ t.binRec? r.bin = some { rec with place := .onShuttle a }
      ∧ (t.shuttle a).carried = some r.bin ∧ t.slot a = some (.command .toPort false) ∧ t.au.fault = s.au.fault)
    ∧ (let t := s.stageDone a o r .lifting .none
      t.order? o = some { r with stage := .finished .absent, pendingOutcome := none }
      ∧ t.binRec? r.bin = some { rec with place := .missing, holder := none }
      ∧ (t.shuttle a).state = .idle ∧ t.au.fault = s.au.fault)
    ∧ (let t := s.stageDone a o r .lifting .unreadable
      t.order? o = some { r with stage := .run .lowering, pendingOutcome := some .unreadable }
      ∧ t.binRec? r.bin = some { rec with place := .unverified } ∧ (t.shuttle a).carried = (s.shuttle a).carried
      ∧ t.slot a = some (.command .lower false)
      ∧ t.au.fault = some (captured (check .labelUnreadable .lifting) s.au.fault))
    ∧ (∀ x, x ≠ r.bin →
      let t := s.stageDone a o r .lifting (.bin x)
      t.order? o = some { r with stage := .run .lowering, pendingOutcome := some .mismatch }
      ∧ t.binRec? r.bin = some { rec with place := .missing }
      ∧ (∀ xr, s.binRec? x = some xr → t.binRec? x = some (if xr.place = .home then { xr with place := .unverified } else xr))
      ∧ t.slot a = some (.command .lower false)
      ∧ t.au.fault = some (captured (check .labelMismatch .lifting) s.au.fault)))
  ∧ (∀ (s : State) (a : Aisle) (o : OrderNo) (r : Order) (rec : BinRec) (label : Label), s.order? o = some r →
      s.binRec? r.bin = some rec →
    let sent (t : State) (st : RunStage) (m : Motion) : Prop :=
      t.order? o = some { r with stage := .run st } ∧ t.slot a = some (.command m false)
      ∧ (t.shuttle a).command = some ⟨m, .sent, false⟩ ∧ (t.shuttle a).deadline = none
      ∧ (t.shuttle a).state = (s.shuttle a).state ∧ (t.shuttle a).order = (s.shuttle a).order
    let ended (t : State) (out : Outcome) : Prop :=
      t.order? o = some { r with stage := .finished (if r.cancel then .cancelled else out), pendingOutcome := none }
      ∧ (t.shuttle a).state = .idle ∧ (t.shuttle a).order = none
    let still (t : State) : Prop := t.tab = s.tab ∧ (t.shuttle a).carried = (s.shuttle a).carried
    let home : Motion := .travel (s.homePosition r.bin)
    let check (kind : FaultKind) : Capture :=
      { kind := kind, shuttle := some a, order := some o, bin := some r.bin, stage := some .lifting, code := none }
    (let t := s.stageDone a o r .seeking label
     (r.cancel = true → ended t .cancelled ∧ t.binRec? r.bin = some { rec with holder := none })
     ∧ (r.cancel = false → r.kind = .probe → sent t .probing .probe ∧ still t)
     ∧ (r.cancel = false → r.kind ≠ .probe → sent t .lifting .lift ∧ still t))
    ∧ (r.cancel = true →
      (let t := s.stageDone a o r .lifting (.bin r.bin)
       sent t .lowering .lower ∧ t.binRec? r.bin = some { rec with place := .onShuttle a } ∧ (t.shuttle a).carried = some r.bin)
      ∧ (let t := s.stageDone a o r .lifting .none
        ended t .cancelled ∧ t.binRec? r.bin = some { rec with place := .missing, holder := none } ∧ t.au.fault = s.au.fault)
      ∧ (let t := s.stageDone a o r .lifting .unreadable
        t.order? o = some { r with stage := .run .lowering, pendingOutcome := some .unreadable }
        ∧ t.binRec? r.bin = some { rec with place := .unverified } ∧ t.slot a = some (.command .lower false)
        ∧ t.au.fault = some (captured (check .labelUnreadable) s.au.fault))
      ∧ (∀ x, x ≠ r.bin →
        let t := s.stageDone a o r .lifting (.bin x)
        t.order? o = some { r with stage := .run .lowering, pendingOutcome := some .mismatch }
        ∧ t.binRec? r.bin = some { rec with place := .missing } ∧ t.slot a = some (.command .lower false)
        ∧ t.au.fault = some (captured (check .labelMismatch) s.au.fault)))
    ∧ (∀ st, st = .carrying ∨ st = .holding →
      let t := s.stageDone a o r st label
      (r.cancel = true → sent t .returning home ∧ still t)
      ∧ (r.cancel = false → s.outPlace a = none → s.zoneState 3 = .normal → sent t .handing .handOff ∧ still t)
      ∧ (r.cancel = false → s.outPlace a ≠ none ∨ s.zoneState 3 ≠ .normal →
          t = s.putOrder o { r with stage := .run .holding }))
    ∧ (let t := s.stageDone a o r .handing label
      t.order? o = some { r with stage := .run .waitingLane } ∧ t.binRec? r.bin = some { rec with place := .portOut a }
      ∧ t.outPlace a = some r.bin ∧ (t.shuttle a).state = .idle ∧ (t.shuttle a).order = none ∧ (t.shuttle a).carried = none)
    ∧ (let t := s.stageDone a o r .takingOn label
      sent t .returning home ∧ t.binRec? r.bin = some { rec with place := .onShuttle a }
      ∧ (t.shuttle a).carried = some r.bin ∧ t.inPlace a = none)
    ∧ (sent (s.stageDone a o r .returning label) .lowering .lower ∧ still (s.stageDone a o r .returning label))
    ∧ (let t := s.stageDone a o r .lowering label
      (r.pendingOutcome = none → ended t .ok ∧ t.binRec? r.bin = some { rec with place := .home, holder := none }
        ∧ (t.shuttle a).carried = none)
      ∧ (∀ f, r.pendingOutcome = some f → ended t (match f with | .mismatch => .mismatch | .unreadable => .unreadable)
        ∧ t.binRec? r.bin = some { rec with holder := none } ∧ (t.shuttle a).carried = (s.shuttle a).carried)))

/-! ## The lane and the stations (Chapter 5) -/

/-- R92 to R94: with zone 3 NORMAL and the lane free, the LC grants the first eligible requester after the grant pointer, in one
step; otherwise, and where no requester is eligible, it grants nothing and the pointer stays. -/
def Obligations.LaneGrantsInRotation : Prop :=
  ∀ (s : State),
    (s.zoneState 3 ≠ .normal ∨ s.lc.crossing ≠ none → s.lookForCrossing = s)
    ∧ ((∀ q b o d, s.request? q = some (b, o, d) → ∃ a x, d = .portIn a ∧ s.inPlace a = some x) → s.lookForCrossing = s)
    ∧ (∀ (a : Aisle) b o d, s.request? (.port a) = some (b, o, d) ↔ ∃ rec r ds, s.outPlace a = some b ∧ s.binRec? b = some rec
        ∧ rec.holder = some o ∧ s.order? o = some r ∧ r.stage = .run .waitingLane ∧ r.kind = .fetch ∧ r.dest = some ds
        ∧ d = .station ds)
    ∧ (∀ (n : StationNo) b o d, s.request? (.station n) = some (b, o, d) ↔ ∃ rec r, s.stationOut n = some b
        ∧ s.binRec? b = some rec ∧ rec.holder = some o ∧ s.order? o = some r ∧ r.stage = .run .waitingLane ∧ r.kind = .stow
        ∧ d = .portIn (s.homeAisle b))
    ∧ (s.zoneState 3 = .normal → s.lc.crossing = none → ∀ q b o d,
        s.request? q = some (b, o, d) → (∀ a, d = .portIn a → s.inPlace a = none) →
        (∀ q', q'.index - s.lc.pointer - 1 < q.index - s.lc.pointer - 1 →
          ∀ b' o' d', s.request? q' = some (b', o', d') → ∃ a x, d' = .portIn a ∧ s.inPlace a = some x) →
        let t := s.lookForCrossing
        t.lc.crossing = some { source := q, dest := d, bin := b, order := o, state := .running 30 }
        ∧ t.lc.pointer = q.index ∧ t.requesterBin? q = none
        ∧ (t.binRec? b).map (·.place) = some .crossing
        ∧ (t.order? o).map (·.stage) = some (.run .crossing)
        ∧ t.lc.lsrc = BitVec.ofNat 4 q.code ∧ t.lc.ldst = BitVec.ofNat 4 d.code ∧ t.lc.lgoPulses = s.lc.lgoPulses + 1)

/-- R95 to R97: LDONE delivers the crossing in progress, LFLT and its deadline fail it, RUNNING or STOPPED but for the deadline, which
a STOPPED crossing does not have; with none in progress LDONE and LFLT are ignored. Either end clears the record and the lane
lines. That a deadline's expiry with no crossing, or with a STOPPED one, changes nothing is the model's reading (log entry 19). -/
def Obligations.CrossingsEndByTheFirstEvent : Prop :=
  ∀ (s : State), s.phase = .running →
    (s.lc.crossing = none → exec .ldone s = .next s ∧ exec .lflt s = .next s ∧ exec .crossingDeadlineExpiry s = .next s)
    ∧ ∀ c, s.lc.crossing = some c →
      exec .ldone s = .next (s.deliver c).settle
      ∧ exec .lflt s = .next (s.failCrossing c .laneFault).settle
      ∧ (∀ n, c.state = .running n → exec .crossingDeadlineExpiry s = .next (s.failCrossing c .laneOverdue).settle)
      ∧ (c.state = .stopped → exec .crossingDeadlineExpiry s = .next s)
      ∧ (∀ (r : Order) (rec : BinRec), s.order? c.order = some r → r.bin = c.bin → r.cancel = false → s.binRec? c.bin = some rec →
        (∀ k, c.dest = .station (.pick k) → r.dest = some (.pick k) →
          let u := s.deliver c
          u.lc.crossing = none ∧ u.lc.lsrc = 0 ∧ u.lc.ldst = 0
          ∧ u.order? c.order = some { r with stage := .finished .ok, pendingOutcome := none }
          ∧ u.binRec? c.bin = some { rec with place := .atStation (.pick k), holder := none }
          ∧ u.presentationQueue k = s.presentationQueue k ++ [c.bin] ∧ u.reserved k = s.reserved k - 1
          ∧ (s.presentationQueue k = [] → u.pendingCause .stationReady = true))
        ∧ (∀ p, c.dest = .station (.ret p) → r.dest = some (.ret p) → s.position p = .arriving c.order →
          let u := s.deliver c
          u.lc.crossing = none ∧ u.lc.lsrc = 0 ∧ u.lc.ldst = 0
          ∧ u.order? c.order = some { r with stage := .finished .ok, pendingOutcome := none }
          ∧ u.binRec? c.bin = some { rec with place := .atStation (.ret p), holder := none }
          ∧ u.position p = .presented c.bin)
        ∧ (∀ a, c.dest = .portIn a →
          let u := s.deliver c
          u.lc.crossing = none ∧ u.lc.lsrc = 0 ∧ u.lc.ldst = 0 ∧ u.inPlace a = some c.bin
          ∧ u.binRec? c.bin = some { rec with place := .portIn a }
          ∧ u.order? c.order = some { r with stage := .run .queued }
          ∧ u.queue a = queueInsert u.priorityOf c.order (s.queue a))
        ∧ ∀ kind,
          let u := s.failCrossing c kind
          u.lc.crossing = none ∧ u.lc.lsrc = 0 ∧ u.lc.ldst = 0
          ∧ u.order? c.order = some { r with stage := .finished .fault, pendingOutcome := none }
          ∧ u.binRec? c.bin = some { rec with place := .unverified, holder := none }
          ∧ u.au.fault = some (captured
              { kind := kind, shuttle := none, order := some c.order, bin := some c.bin, stage := some .crossing, code := none }
              s.au.fault))

/-- R101 and R102: OPEN STATION, CLOSE STATION and SET STATION at the CONTEXT station. Opening lets the settling call bins to the return
station; closing an OPEN station 4 withdraws its fetch claims and makes WANTING positions EMPTY (R133). -/
def Obligations.StationsOpenCloseAndAreSupervised : Prop :=
  ∀ (s : State) (n : StationNo), s.windowFree = true → s.operands.station = n.val →
    let opened : StationState := match s.stationState n with | .fireHeld _ => .fireHeld true | _ => .opened
    let closed : StationState := match s.stationState n with | .fireHeld _ => .fireHeld false | _ => .closed
    let answer (st : StationState) : Answer :=
      { a0 := match st with
          | .closed => 0x00FF
          | .opened => 0x01FF
          | .fireHeld false => 0x0200
          | .fireHeld true => 0x0201 }
    exec .openStation s =
      .next ((((s.storeRequest 0x30).setStationState n opened).settle).endRequest .ok (answer opened))
    ∧ (n.val ≠ 4 ∨ s.stationState n ≠ .opened →
        exec .closeStation s = .next ((s.setStationState n closed).requestDone 0x31 .ok (answer closed)))
    ∧ (n.val = 4 → s.stationState n = .opened →
        exec .closeStation s = .next (((s.setStationState n closed).closeReturn).requestDone 0x31 .ok (answer closed))
        ∧ (∀ p, s.closeReturn.position p = if s.position p = .wanting then .empty else s.position p)
        ∧ s.closeReturn.ou.claims = s.ou.claims.filter (fun c => !(c.rank == 8 || c.rank == 9)))
    ∧ (∀ f : Bool, s.operands.cell 0 = flagCode f →
        exec .setStation s = .next (State.requestDone 0x32 .ok { a0 := word (flagCode s.tab.supervised[n]) }
          { s with tab.supervised := s.tab.supervised.set n f }))
    ∧ (1 < s.operands.cell 0 → exec .setStation s = .next (s.requestDone 0x32 .badOperand {}))

/-- R103 and R104: DISMISS at a pick station. -/
def Obligations.DismissSendsThePresentedBinOut : Prop :=
  ∀ (s : State) (k : PickNo), s.windowFree = true → s.operands.station = k.val →
    let first : List (Bool × Code) :=
      [(decide (s.operands.cell 0 ≤ 3), .badOperand), (!(s.stationState (pickStation k)).isFireHeld, .zoneLocked)]
    (∀ c, firstFailing first = some c → exec .dismiss s = .next (s.requestDone 0x33 c {}))
    ∧ (firstFailing first = none → s.presentationQueue k = [] → exec .dismiss s = .next (s.requestDone 0x33 .notPresented {}))
    ∧ (firstFailing first = none → ∀ b rest, s.presentationQueue k = b :: rest →
      let checks : List (Bool × Code) :=
        [(decide (s.classOf b = .view → s.pickedOutOf b = 0), .itemsOut),
         ((s.stationOut (pickStation k)).isNone, .outBusy),
         (decide (s.ou.quiet ≠ .quiet), .quiet),
         (s.freeEntry?.isSome, .noOrderEntry)]
      (∀ c, firstFailing checks = some c → exec .dismiss s = .next (s.requestDone 0x33 c {}))
      ∧ ∀ (e : OrderNo) (pr : Fin 4), firstFailing checks = none → s.freeEntry? = some e → pr.val = s.operands.cell 0 →
        let u := (s.storeRequest 0x33).dismiss e b rest pr k
        exec .dismiss s = .next (u.settle.endRequest .ok
          { a0 := word e.val, a1 := match rest with | x :: _ => word x.val | [] => 0xFFFF })
        ∧ u.order? e = some { kind := .stow, source := .host, bin := b, aisle := s.homeAisle b, priority := pr
                              stage := .run .waitingLane, dest := none, cancel := false, pendingOutcome := none }
        ∧ (∀ r, s.binRec? b = some r →
            u.binRec? b = some { r with holder := some e, place := .stationOut (pickStation k) })
        ∧ u.presentationQueue k = rest ∧ u.stationOut (pickStation k) = some b
        ∧ (rest ≠ [] → u.pendingCause .stationReady = true))

/-- R105: RECLAIM PLACE gives a bin left without an order in a port place or a station out place a FETCH or a STOW. -/
def Obligations.ReclaimGivesTheBinAnOrder : Prop :=
  ∀ (s : State), s.windowFree = true →
    (∀ (a : Aisle) (b : BinNo) (r : BinRec) (k : PickNo), s.operands.cell 0 = 0 → s.operands.cell 1 = a.val →
      s.operands.cell 2 ≤ 3 → s.outPlace a = some b → s.binRec? b = some r → s.operands.station = k.val →
      let checks : List (Bool × Code) :=
        [(r.holder.isNone, .inUse), (decide (s.zoneState 3 = .normal), .zoneLocked),
         (decide (s.classOf b = .inBuilding ∨ s.classOf b = .view → s.tab.supervised[pickStation k] = true), .access),
         (decide (s.stationState (pickStation k) = .opened), .stationClosed),
         (decide ((s.presentationQueue k).length + s.reserved k < 4), .stationFull),
         (decide (s.ou.quiet = .active), .quiet), (s.freeEntry?.isSome, .noOrderEntry)]
      (∀ c, firstFailing checks = some c → exec .reclaimPlace s = .next (s.requestDone 0x34 c {}))
      ∧ ∀ (e : OrderNo) (pr : Fin 4), firstFailing checks = none → s.freeEntry? = some e → pr.val = s.operands.cell 2 →
        exec .reclaimPlace s = .next ((((((s.storeRequest 0x34).putOrder e
            { kind := .fetch, source := .host, bin := b, aisle := s.homeAisle b, priority := pr, stage := .run .waitingLane
              dest := some (.pick k), cancel := false, pendingOutcome := none }).setHolder b (some e)).setReserved k
            (s.reserved k + 1)).settle).endRequest .ok { a0 := word e.val, a1 := word b.val }))
    ∧ (∀ (pl : Reclaimed) (b : BinNo) (r : BinRec) (st : RunStage), s.operands.reclaimed? = some pl →
        ((∃ a, pl = .portIn a) ∧ st = .queued) ∨ ((∃ n, pl = .stationOut n) ∧ st = .waitingLane) →
        s.operands.cell 2 ≤ 3 → s.reclaimedBin? pl = some b → s.binRec? b = some r →
      let checks : List (Bool × Code) :=
        [(r.holder.isNone, .inUse), (decide (s.zoneState 3 = .normal), .zoneLocked),
         (decide (s.ou.quiet ≠ .quiet), .quiet), (s.freeEntry?.isSome, .noOrderEntry)]
      (∀ c, firstFailing checks = some c → exec .reclaimPlace s = .next (s.requestDone 0x34 c {}))
      ∧ ∀ (e : OrderNo) (pr : Fin 4), firstFailing checks = none → s.freeEntry? = some e → pr.val = s.operands.cell 2 →
        exec .reclaimPlace s = .next ((((s.storeRequest 0x34).placeOrder e
            { kind := .stow, source := .host, bin := b, aisle := s.homeAisle b, priority := pr, stage := .run st
              dest := none, cancel := false, pendingOutcome := none }).settle).endRequest .ok
            { a0 := word e.val, a1 := word b.val }))
    ∧ (∀ pl, s.operands.reclaimed? = some pl → s.operands.cell 2 ≤ 3 → s.operands.station ≤ 4 → s.reclaimedBin? pl = none →
        exec .reclaimPlace s = .next (s.requestDone 0x34 .noRecord {}))
    ∧ (s.operands.reclaimed? = none ∨ 3 < s.operands.cell 2 ∨ (s.operands.cell 0 = 0 ∧ 4 < s.operands.station) →
        exec .reclaimPlace s = .next (s.requestDone 0x34 .badOperand {}))
    ∧ (∀ pl, s.operands.reclaimed? = some pl ↔
        (∃ a : Aisle, s.operands.cell 1 = a.val
            ∧ ((s.operands.cell 0 = 0 ∧ pl = .portOut a) ∨ (s.operands.cell 0 = 1 ∧ pl = .portIn a)))
        ∨ ∃ n : StationNo, s.operands.cell 0 = 2 ∧ s.operands.cell 1 = n.val ∧ pl = .stationOut n)

/-- R107: READ STATION and READ LANE. The FFFF in A0 to A2 of READ LANE with no crossing in progress is the model's reading of R180 (log
entry 21). -/
def Obligations.StationAndLaneReadsAnswer : Prop :=
  ∀ (s : State), s.windowFree = true →
    let bin (b : Option BinNo) : Word := match b with | some b => word b.val | none => 0xFFFF
    let holder (b : Option BinNo) : Word := match b with
      | some b => (match s.binRec? b with
        | some r => (match r.holder with | some o => word o.val | none => 0xFFFF)
        | none => 0xFFFF)
      | none => 0xFFFF
    (∀ k : PickNo, s.operands.cell 0 = k.val → exec .readStation s = .next (s.requestDone 0x35 .ok
      { a0 := bin (s.presentationQueue k)[0]?, a1 := bin (s.presentationQueue k)[1]?
        a2 := bin (s.presentationQueue k)[2]?, a3 := bin (s.presentationQueue k)[3]? }))
    ∧ (s.operands.cell 0 = 4 → exec .readStation s = .next (s.requestDone 0x35 .ok
      { a0 := bin (s.stationOut 4), a1 := bin s.su.intake.bin?, a2 := bin s.su.hold.bin?
        a3 := bytePair s.su.intake.code s.su.hold.code }))
    ∧ (4 < s.operands.cell 0 → exec .readStation s = .next (s.requestDone 0x35 .badOperand {}))
    ∧ (∀ a : Aisle, s.operands.cell 0 = a.val → exec .readLane s = .next (s.requestDone 0x36 .ok
      { a0 := bin (s.outPlace a), a1 := holder (s.outPlace a), a2 := bin (s.inPlace a), a3 := holder (s.inPlace a) }))
    ∧ (5 < s.operands.cell 0 → s.operands.cell 0 ≠ 0xFFFF → exec .readLane s = .next (s.requestDone 0x36 .badOperand {}))
    ∧ (s.operands.cell 0 = 0xFFFF → ∀ c, s.lc.crossing = some c → exec .readLane s = .next (s.requestDone 0x36 .ok
      { a0 := bytePair c.source.code c.dest.code, a1 := word c.bin.val
        a2 := bytePair c.order.val (match c.state with | .running _ => 1 | .stopped => 2), a3 := word s.lc.pointer.val }))
    ∧ (s.operands.cell 0 = 0xFFFF → s.lc.crossing = none → exec .readLane s = .next (s.requestDone 0x36 .ok
      { a0 := 0xFFFF, a1 := 0xFFFF, a2 := 0xFFFF, a3 := word s.lc.pointer.val }))

/-! ## Lending and holds (Chapter 6) -/

/-- R111 to R114: PICK and PUT BACK at an OPEN pick station. -/
def Obligations.PickAndPutBackMoveTheItem : Prop :=
  ∀ (s : State) (k : PickNo) (i : Item), s.windowFree = true → s.operands.station = k.val →
    1 ≤ s.operands.tag → s.operands.tag ≤ 16777215 → s.stationState (pickStation k) = .opened →
    s.item? s.operands.tag = some i →
    (s.presentedAt? k = none → exec .pick s = .next (s.requestDone 0x40 .notPresented {})
      ∧ (∀ b, i.state = .picked k b → exec .putBack s = .next (s.requestDone 0x41 .notPresented {})))
    ∧ ((∀ b, i.state ≠ .picked k b) → exec .putBack s = .next (s.requestDone 0x41 .wrongState {}))
    ∧ ∀ b r, s.presentedAt? k = some (b, r) →
      Judged s .pick 0x40
        [(decide (i.state = .shelved b ∨ i.state = .held b), .notPresented), (decide (r.pickedOut < 63), .itemsOut)]
        ((((s.putItem s.operands.tag { i with state := .picked k b }).countOut b).pickedOutUp b).requestDone 0x40 .ok
          { a0 := word b.val, a1 := bytePair (r.itemCount - 1) (r.pickedOut + 1), a2 := word i.holds.length })
      ∧ ∀ origin, i.state = .picked k origin →
        let st : ItemState := if r.kind = .hold then .held b else .shelved b
        Judged s .putBack 0x41
          [(decide (s.classOf origin = .view → b = origin), .origin),
           (decide (r.kind = .hold → i.holds ≠ []), .wrongState),
           (decide (r.itemCount < r.capacity), .binFull)]
          ((((s.putItem s.operands.tag { i with state := st }).pickedOutDown origin).countIn b).requestDone 0x41 .ok
            { a0 := word b.val, a1 := word (r.itemCount + 1), a2 := word st.code })

/-- R117 to R119: CHARGE of an item PICKED at the OPEN CONTEXT station, whose checks are those of R117 where a bin is presented. Where
none is, R39 and R115 have it refused, here with NOT_PRESENTED after check 2 (the model's choice), and R110 and R117 have the checks go
on: the statement holds whichever the part follows (a free value, log entry 28). -/
def Obligations.ChargeLendsToThePatron : Prop :=
  ∀ (s : State) (k : PickNo) (i : Item), s.windowFree = true → s.operands.station = k.val →
    1 ≤ s.operands.tag → s.operands.tag ≤ 16777215 → 1 ≤ s.operands.secondPatron → s.operands.secondPatron ≤ 1048575 →
    s.stationState (pickStation k) = .opened → s.item? s.operands.tag = some i →
    ((∀ b, i.state ≠ .picked k b) → exec .charge s = .next (s.requestDone 0x42 .wrongState {}))
    ∧ ∀ origin, i.state = .picked k origin →
      (s.presentedAt? k = none → Config.chargeNeedsBin = true → exec .charge s = .next (s.requestDone 0x42 .notPresented {}))
      ∧ ((s.presentedAt? k).isSome ∨ Config.chargeNeedsBin = false →
        (s.patron? s.operands.secondPatron = none → exec .charge s = .next (s.requestDone 0x42 .noRecord {}))
        ∧ ∀ p, s.patron? s.operands.secondPatron = some p →
          let n := s.operands.secondPatron
          let days := s.operands.cell 4
          let due := s.tab.day + days
          let row := s.tab.categories[p.category.row]
          let checks : List (Bool × Code) :=
            [(!p.blocked, .blocked),
             ((match p.loans.head? with | some t => decide (s.tab.day ≤ s.dueOf t) | none => true), .overdue),
             (decide (p.loans.length < row.limit), .limit),
             (decide (days ≤ row.maxDays), .badOperand),
             (decide (due ≤ 65535), .badOperand),
             ((match s.classOf origin with
                | .openClass => true
                | .inBuilding => decide (days = 0) && s.tab.supervised[pickStation k]
                | _ => false), .access),
             (decide (i.holds = [] ∨ i.holds.head? = some n), .heldForOther)]
          (∀ c, firstFailing checks = some c → exec .charge s = .next (s.requestDone 0x42 c {}))
          ∧ (firstFailing checks = none →
            let holds := if i.holds.head? = some n then i.holds.tail else i.holds
            let u := s.chargeItem s.operands.tag i origin n due
            exec .charge s = .next (u.requestDone 0x42 .ok
              { a0 := word due, a1 := word (p.loans.length + 1)
                a2 := word ((loanInsert u.dueOf due s.operands.tag p.loans).idxOf s.operands.tag), a3 := word holds.length })
            ∧ u.item? s.operands.tag = some { state := .onLoan n due 0, holds := holds }
            ∧ u.patron? n = some { p with
                loans := loanInsert u.dueOf due s.operands.tag p.loans
                holdCount := p.holdCount - (if i.holds.head? = some n then 1 else 0) }
            ∧ (∀ b, u.binRec? b = (s.binRec? b).map fun r => if b = origin then { r with pickedOut := r.pickedOut - 1 } else r)
            ∧ (∀ t, t ≠ s.operands.tag → u.item? t = s.item? t) ∧ (∀ m, m ≠ n → u.patron? m = s.patron? m)
            ∧ u.tab.segments = s.tab.segments))

/-- R120: RENEW of an item ON_LOAN at an OPEN pick station. -/
def Obligations.RenewMovesTheLoan : Prop :=
  ∀ (s : State) (k : PickNo) (i : Item), s.windowFree = true → s.operands.station = k.val →
    1 ≤ s.operands.tag → s.operands.tag ≤ 16777215 → s.stationState (pickStation k) = .opened →
    s.item? s.operands.tag = some i →
    ((∀ n due renewals, i.state ≠ .onLoan n due renewals) → exec .renew s = .next (s.requestDone 0x43 .wrongState {}))
    ∧ ∀ n due renewals p, i.state = .onLoan n due renewals → s.patron? n = some p →
      let newDue := s.tab.day + s.operands.cell 2
      let u := (s.putItem s.operands.tag { i with state := .onLoan n newDue (renewals + 1) }).moveLoan n s.operands.tag newDue
      let list := loanInsert u.dueOf newDue s.operands.tag (p.loans.erase s.operands.tag)
      Judged s .renew 0x43
        [(decide (renewals < 3), .renewLimit), (i.holds.isEmpty, .heldForOther),
         (decide (s.operands.cell 2 ≤ s.tab.categories[p.category.row].maxDays), .badOperand),
         (decide (newDue ≤ 65535), .badOperand), (decide (due ≤ newDue), .badOperand)]
        (u.requestDone 0x43 .ok
          { a0 := word newDue, a1 := word (renewals + 1), a2 := word (list.idxOf s.operands.tag) })
      ∧ u.patron? n = some { p with loans := list }

/-- R121: DECLARE LOST of an item ON_LOAN, or SHELVED in a bin that is MISSING or UNVERIFIED, at a pick station that takes record
requests. The 0 in A2 for a SHELVED item is the model's reading of R180 (log entry 21). -/
def Obligations.DeclareLostEndsTheItem : Prop :=
  ∀ (s : State) (k : PickNo) (i : Item), s.windowFree = true → s.operands.station = k.val →
    1 ≤ s.operands.tag → s.operands.tag ≤ 16777215 →
    s.stationState (pickStation k) = .opened ∨ s.stationState (pickStation k) = .fireHeld true →
    s.item? s.operands.tag = some i →
    let lose (u : State) : State := (State.dropHolds i.holds u).putItem s.operands.tag { state := .lost, holds := [] }
    (∀ n due renewals, i.state = .onLoan n due renewals →
      exec .declareLost s = .next ((lose (s.changePatron n fun p => { p with loans := p.loans.erase s.operands.tag })).requestDone
        0x44 .ok { a0 := 0, a1 := word (n / 65536), a2 := word n, a3 := word i.holds.length }))
    ∧ (∀ b r, i.state = .shelved b → s.binRec? b = some r →
        (r.place = .missing ∨ r.place = .unverified →
          exec .declareLost s = .next ((lose (s.countOut b)).requestDone 0x44 .ok
            { a0 := 1, a1 := word b.val, a3 := word i.holds.length }))
        ∧ (r.place ≠ .missing → r.place ≠ .unverified → exec .declareLost s = .next (s.requestDone 0x44 .wrongState {})))
    ∧ ((∃ b, i.state = .held b) ∨ (∃ j b, i.state = .picked j b) ∨ i.state = .dropped ∨ i.state = .lost →
        exec .declareLost s = .next (s.requestDone 0x44 .wrongState {}))

/-- R122 to R125: PLACE HOLD and CANCEL HOLD at a pick station that takes record requests. -/
def Obligations.HoldsArePlacedAndCancelled : Prop :=
  ∀ (s : State) (k : PickNo) (i : Item), s.windowFree = true → s.operands.station = k.val →
    1 ≤ s.operands.tag → s.operands.tag ≤ 16777215 → 1 ≤ s.operands.secondPatron → s.operands.secondPatron ≤ 1048575 →
    s.stationState (pickStation k) = .opened ∨ s.stationState (pickStation k) = .fireHeld true →
    s.item? s.operands.tag = some i →
    let n := s.operands.secondPatron
    let inHoldBin (b : BinNo) : Bool := match s.binRec? b with | some r => decide (r.kind = .hold) | none => false
    let follow (holds : List PatronNo) : ItemState := match i.state with
      | .shelved b => if inHoldBin b ∧ holds ≠ [] then .held b else .shelved b
      | .held b => if holds = [] then .shelved b else .held b
      | st => st
    (s.patron? n = none → exec .placeHold s = .next (s.requestDone 0x45 .noRecord {}))
    ∧ (∀ p, s.patron? n = some p →
      let checks : List (Bool × Code) :=
        [(decide (i.state ≠ .lost), .wrongState), (!i.holds.contains n, .duplicate),
         (decide (i.holds.length < 4 ∧ p.holdCount < 8), .holdLimit),
         ((match i.state with | .onLoan m _ _ => decide (m ≠ n) | _ => true), .wrongState)]
      (∀ c, firstFailing checks = some c → exec .placeHold s = .next (s.requestDone 0x45 c {}))
      ∧ (firstFailing checks = none → (∀ m due renewals, i.state ≠ .onLoan m due renewals) →
          exec .placeHold s = .next (((s.putItem s.operands.tag
            { state := follow (i.holds ++ [n]), holds := i.holds ++ [n] }).holdCountUp n).requestDone 0x45 .ok
            { a0 := word i.holds.length, a1 := word (follow (i.holds ++ [n])).code, a2 := 0xFFFF }))
      ∧ (firstFailing checks = none → ∀ m due renewals, i.state = .onLoan m due renewals →
          let newDue := min due (min (s.tab.day + 7) 65535)
          let u := (s.putItem s.operands.tag { state := .onLoan m newDue renewals, holds := i.holds ++ [n] }).holdCountUp n
          exec .placeHold s = .next ((if newDue < due then u.moveLoan m s.operands.tag newDue else u).requestDone 0x45 .ok
            { a0 := word i.holds.length, a1 := 3, a2 := word newDue })))
    ∧ (i.holds.contains n = false → exec .cancelHold s = .next (s.requestDone 0x46 .noRecord {}))
    ∧ (i.holds.contains n = true →
        let holds := i.holds.erase n
        let head := match holds with | m :: _ => m | [] => 0
        exec .cancelHold s = .next (((s.putItem s.operands.tag { state := follow holds, holds := holds }).holdCountDown n).requestDone
          0x46 .ok { a0 := word holds.length, a1 := word (head / 65536), a2 := word head, a3 := word (follow holds).code }))

/-! ## The record operations -/

/-- What the operations on bins, items and patrons read back: each changes one record and leaves every other; a change of an item count
sets the changed flag of the bin's segment and no other (R9, R24). -/
def Obligations.RecordsReadBackAsWritten : Prop :=
  ∀ (s : State),
    (∀ t u i, (s.putItem t i).item? u = if u = t then some i else s.item? u)
    ∧ (∀ n m p, (s.putPatron n p).patron? m = if m = n then some p else s.patron? m)
    ∧ (∀ (b c : BinNo) r, (s.putBin b r).binRec? c = if c = b then some r else s.binRec? c)
    ∧ (∀ (b c : BinNo), (s.countIn b).binRec? c =
        (s.binRec? c).map fun r => if c = b then { r with itemCount := r.itemCount + 1 } else r)
    ∧ (∀ (b c : BinNo), (s.countOut b).binRec? c =
        (s.binRec? c).map fun r => if c = b then { r with itemCount := r.itemCount - 1 } else r)
    ∧ (∀ (b c : BinNo), (s.pickedOutUp b).binRec? c =
        (s.binRec? c).map fun r => if c = b then { r with pickedOut := r.pickedOut + 1 } else r)
    ∧ (∀ (b c : BinNo), (s.pickedOutDown b).binRec? c =
        (s.binRec? c).map fun r => if c = b then { r with pickedOut := r.pickedOut - 1 } else r)
    ∧ (∀ (b : BinNo) (g : SegNo), (s.countIn b).segment g = (if g = segOf b then { s.segment g with changed := true } else s.segment g)
        ∧ (s.countOut b).segment g = (if g = segOf b then { s.segment g with changed := true } else s.segment g)
        ∧ (s.pickedOutUp b).segment g = s.segment g ∧ (s.pickedOutDown b).segment g = s.segment g)
    ∧ (tableSorted s.tab.items = true → ∀ t u, (s.eraseItem t).item? u = if u = t then none else s.item? u)
    ∧ (tableSorted s.tab.patrons = true → ∀ n m, (s.erasePatron n).patron? m = if m = n then none else s.patron? m)
    ∧ (tableSorted s.tab.bins = true → ∀ b c : BinNo, (s.eraseBin b).binRec? c = if c = b then none else s.binRec? c)
    ∧ (∀ n m, (s.holdCountUp n).patron? m =
        (s.patron? m).map fun p => if m = n then { p with holdCount := p.holdCount + 1 } else p)
    ∧ (∀ n m, (s.holdCountDown n).patron? m =
        (s.patron? m).map fun p => if m = n then { p with holdCount := p.holdCount - 1 } else p)


/-! ## The return station (Chapter 7) -/

/-- R134, R135 and R137: RETURN ITEM and PLACE DROPPED at station 4, for a tag in its range. A placed item raises the bin's count,
and a bin at its capacity makes the position FULL_WAITING; a dropped item joins the tail of the drop list, which wakes the wing at a
length of 24 or more. The former-patron field of an item that was not ON_LOAN is open: its high part is a free value (log entry 6),
and the clause holds of whatever value stands there; its low part is the mark for none, where R29 has 0 stand for no patron (the
model's choice, log entry 38). -/
def Obligations.ReturnsArePlacedOrDropped : Prop :=
  ∀ (s : State), s.windowFree = true → s.operands.station = 4 → 1 ≤ s.operands.tag → s.operands.tag ≤ 16777215 →
    let t := s.operands.tag
    let open4 : List (Bool × Code) :=
      [(!(s.stationState 4).isFireHeld, .zoneLocked), (decide (s.stationState 4 = .opened), .stationClosed)]
    (s.item? t = none → ∀ c, firstFailing (open4 ++ [(false, .noRecord)]) = some c →
      exec .returnItem s = .next (s.requestDone 0x50 c {}) ∧ exec .placeDropped s = .next (s.requestDone 0x51 c {}))
    ∧ ∀ i, s.item? t = some i →
      let route : Position := if i.holds = [] then .intake else .hold
      let place (b : BinNo) (r : BinRec) (u : State) : State :=
        let v := (u.putItem t { state := if i.holds = [] then .shelved b else .held b, holds := i.holds }).countIn b
        if r.itemCount + 1 < r.capacity then v else v.setPosition route (.fullWaiting b)
      let count (r : BinRec) : Word := word ((if r.itemCount + 1 < r.capacity then 0 else 32768) + (r.itemCount + 1))
      let former (u : State) : State := match i.state with
        | .onLoan n _ _ => u.changePatron n fun p => { p with loans := p.loans.erase t }
        | .picked _ origin => u.pickedOutDown origin
        | _ => u
      let a3 : Word := match i.state with | .onLoan n _ _ => word n | _ => 0xFFFF
      let returnChecks : List (Bool × Code) := open4 ++
        [(match i.state with | .shelved _ => false | .held _ => false | _ => true, .wrongState),
         (decide (i.state ≠ .dropped), .duplicate),
         ((s.presentedIn? route).isSome || decide (s.dropList.length < 32), .dropFull)]
      let placeChecks : List (Bool × Code) := open4 ++
        [(decide (i.state = .dropped), .wrongState),
         ((s.presentedIn? route).isSome || (s.position route).isFullWaiting, .notPresented),
         ((s.presentedIn? route).isSome, .binFull)]
      (∀ c, firstFailing returnChecks = some c → exec .returnItem s = .next (s.requestDone 0x50 c {}))
      ∧ (firstFailing returnChecks = none → ∃ q, q < 16 ∧ (∀ n due k, i.state = .onLoan n due k → q = n / 65536 % 16) ∧
        (∀ b r, s.position route = .presented b → s.binRec? b = some r →
          exec .returnItem s = .next (((place b r (former (s.storeRequest 0x50))).settle).endRequest .ok
            { a0 := word (q * 4096 + i.state.code * 256 + route.code), a1 := word b.val, a2 := count r, a3 := a3 }))
        ∧ (s.presentedIn? route = none →
          let d := (former (s.storeRequest 0x50)).putItem t { i with state := .dropped }
          let u := { d with dropList := s.dropList ++ [t] }
          exec .returnItem s = .next (((if 24 ≤ s.dropList.length + 1 then u.wakeByNeed else u).settle).endRequest .ok
            { a0 := word (q * 4096 + i.state.code * 256 + route.code), a1 := 0xFFFF
              a2 := bytePair s.dropList.length (s.dropList.length + 1), a3 := a3 })))
      ∧ (∀ c, firstFailing placeChecks = some c → exec .placeDropped s = .next (s.requestDone 0x51 c {}))
      ∧ (firstFailing placeChecks = none → ∀ b r, s.position route = .presented b → s.binRec? b = some r →
          exec .placeDropped s = .next
            (((place b r { s.storeRequest 0x51 with dropList := s.dropList.erase t }).settle).endRequest .ok
            { a0 := word route.code, a1 := word b.val, a2 := count r, a3 := word (s.dropList.erase t).length }))

/-- R132 and R138: CLOSE POSITION at station 4 makes a PRESENTED position FULL_WAITING and answers from the state its settling leaves,
the STOW's number being the bin's holder there (the model's reading of R132, log entry 14); READ DROP LIST answers with the length
and the entry at an index. -/
def Obligations.PositionsCloseAndDropListReads : Prop :=
  ∀ (s : State), s.windowFree = true →
    (∀ p : Position, s.operands.station = 4 → s.operands.cell 0 = p.code →
      ((s.stationState 4).isFireHeld = true → exec .closePosition s = .next (s.requestDone 0x52 .zoneLocked {}))
      ∧ ((s.stationState 4).isFireHeld = false →
        (∀ b, s.position p = .presented b →
          let u := ((s.storeRequest 0x52).setPosition p (.fullWaiting b)).settle
          exec .closePosition s = .next (u.endRequest .ok
            { a0 := if u.position p = .fullWaiting b then 0xFFFF else
                match u.binRec? b with
                | some r => (match r.holder with | some e => word e.val | none => 0xFFFF)
                | none => 0xFFFF
              a1 := word (u.position p).code }))
        ∧ (∀ b, s.position p = .fullWaiting b →
            exec .closePosition s = .next (s.requestDone 0x52 .ok { a0 := 0xFFFF, a1 := 4 }))
        ∧ (s.position p = .empty ∨ s.position p = .wanting ∨ (∃ e, s.position p = .arriving e) →
            exec .closePosition s = .next (s.requestDone 0x52 .notPresented {}))))
    ∧ (1 < s.operands.cell 0 → exec .closePosition s = .next (s.requestDone 0x52 .badOperand {}))
    ∧ (31 < s.operands.cell 0 → exec .readDropList s = .next (s.requestDone 0x53 .badOperand {}))
    ∧ (s.operands.cell 0 ≤ 31 →
      (s.dropList.length ≤ s.operands.cell 0 → exec .readDropList s =
        .next (s.requestDone 0x53 .ok { a0 := word s.dropList.length, a3 := 0xFFFF }))
      ∧ ∀ t i, s.dropList[s.operands.cell 0]? = some t → s.item? t = some i → exec .readDropList s =
        .next (s.requestDone 0x53 .ok
          { a0 := word s.dropList.length, a1 := word (t / 65536), a2 := word t, a3 := if i.holds = [] then 0 else 1 }))

/-- R129 and R131: the dismissal of a FULL_WAITING position and the fetch claim of a position in need, each with its entry, with
none free, and where its conditions do not hold. A dismissal that is made leaves the position EMPTY, and no longer FULL_WAITING for
the next request (where the closing sentence of R140 says otherwise: log entry 32). A fetch claim wakes the wing out of QUIET with
or without a free entry, and a dismissal only when it is made: a dismissal that finds no entry free leaves the quiet state as it
was, the model's reading of R67, R129 and R131 (log entry 11). R16 to R18: the members of the two pools, and the first of a pool by
bin number, in a memory whose bin table keeps its order (which every step keeps). -/
def Obligations.PositionsCallAndDismissBins : Prop :=
  ∀ (s : State) (p : Position),
    (∀ b, s.position p = .fullWaiting b → (s.stationState 4).isFireHeld = false → s.stationOut 4 = none →
      (∀ e, s.freeEntry? = some e →
        let t := s.tryDismissal p
        t.order? e = some { kind := .stow, source := .returnStation, bin := b, aisle := s.homeAisle b, priority := 2
                            stage := .run .waitingLane, dest := none, cancel := false, pendingOutcome := none }
        ∧ (∀ r, s.binRec? b = some r → t.binRec? b = some { r with holder := some e, place := .stationOut 4 })
        ∧ t.stationOut 4 = some b ∧ t.position p = .empty ∧ t.dismissalMark p = false
        ∧ (s.ou.quiet = .quiet → t.ou.quiet = .active ∧ t.pendingCause .woken = true))
      ∧ (s.freeEntry? = none → (s.tryDismissal p).dismissalMark p = true ∧ (s.tryDismissal p).position p = .fullWaiting b
          ∧ (s.tryDismissal p).ou.quiet = s.ou.quiet))
    ∧ ((∀ b, s.position p ≠ .fullWaiting b) ∨ (s.stationState 4).isFireHeld = true ∨ s.stationOut 4 ≠ none →
        s.tryDismissal p = s)
    ∧ (s.stationState 4 = .opened →
        (s.position p = .empty ∧ s.fetchMark p = false) ∨ (s.position p = .wanting ∧ s.poolFirst? p ≠ none) →
      let t := s.tryFetch p
      (s.ou.quiet = .quiet → t.ou.quiet = .active ∧ t.pendingCause .woken = true)
      ∧ (∀ e b r, s.freeEntry? = some e → s.poolFirst? p = some b → s.binRec? b = some r →
          t.order? e = some { kind := .fetch, source := .returnStation, bin := b, aisle := s.homeAisle b, priority := 2
                              stage := .run .queued, dest := some (.ret p), cancel := false, pendingOutcome := none }
          ∧ t.binRec? b = some { r with holder := some e } ∧ t.position p = .arriving e ∧ t.fetchMark p = false
          ∧ t.queue (s.homeAisle b) = queueInsert t.priorityOf e (s.queue (s.homeAisle b)))
      ∧ (s.freeEntry?.isSome = true → s.poolFirst? p = none →
          t.position p = .wanting ∧ t.fetchMark p = false ∧ t.pendingCause .intakeExhausted = true ∧ t.ou.orders = s.ou.orders)
      ∧ (s.freeEntry? = none → t.position p = .empty ∧ t.fetchMark p = true ∧ t.ou.orders = s.ou.orders))
    ∧ (s.stationState 4 ≠ .opened ∨ (s.position p = .empty ∧ s.fetchMark p = true)
        ∨ (s.position p = .wanting ∧ s.poolFirst? p = none) ∨ (∃ e, s.position p = .arriving e)
        ∨ (∃ b, s.position p = .presented b) ∨ (∃ b, s.position p = .fullWaiting b) → s.tryFetch p = s)
    ∧ (∀ b r, s.inPool p b r = true ↔ (match p with
          | .intake => r.kind = .intake ∧ r.itemCount = 0
          | .hold => r.kind = .hold ∧ r.itemCount < r.capacity)
        ∧ r.place = .home ∧ r.holder = none ∧ s.zoneState (zoneOf (s.homeAisle b)) = .normal)
    ∧ (tableSorted s.tab.bins = true →
      (∀ b, s.poolFirst? p = some b ↔ (∃ r, s.binRec? b = some r ∧ s.inPool p b r = true)
        ∧ ∀ b' r', b' < b → s.binRec? b' = some r' → s.inPool p b' r' = false)
      ∧ (s.poolFirst? p = none ↔ ∀ b r, s.binRec? b = some r → s.inPool p b r = false))

/-! ## Fire zones (Chapter 8) -/

/-- R142 to R145: a change of an alarm line is recorded, and a line that becomes active takes a NORMAL or RECOVERY zone into ALARM:
an aisle zone halts its orders and parks its shuttles, the front hall stops the lane, holds the stations and withdraws the HAND_OFF
and TAKE_ON messages that wait. R84: a quiet PARK in flight is taken as the fire PARK. R85: a command in an exchange is left to its
answer; a RESUME ORDER or REVIVE SHUTTLE whose STATUS waits is refused, and the answer of one in an exchange is used for the
silence count and the position alone (for a RESUME ORDER and an offline poll: log entry 16). Two clauses are the model's reading: the
command of a withdrawn TAKE_ON is cleared as that of a HAND_OFF is (log entry 22), and a result that is to be discarded stays so
(log entry 25). During start-up a change sets the pin
alone, which start-up reads (R170; log entry 19). -/
def Obligations.AlarmLineTakesTheZoneIntoAlarm : Prop :=
  (∀ (s : State) (z : ZoneNo) (active : Bool),
      let pin : State := { s with fiu.alm := s.fiu.alm.set z active }
      (s.phase = .starting → exec (.alarmLineChange z active) s = .next pin)
      ∧ (s.phase = .running →
        (active = false ∨ (s.zoneState z ≠ .normal ∧ s.zoneState z ≠ .recovery) →
          exec (.alarmLineChange z active) s = .next (pin.setLine z active))
        ∧ (active = true → s.zoneState z = .normal ∨ s.zoneState z = .recovery →
          exec (.alarmLineChange z active) s = .next (((pin.setLine z true).enterAlarm z).settle))))
  ∧ (∀ (s : State) (z : ZoneNo),
      let t := s.enterAlarm z
      t.zone z = { s.zone z with state := .alarm s.tab.deadlines[z], clr := false }
      ∧ (∀ y, y ≠ z → t.zone y = s.zone y)
      ∧ t.pendingCause .zoneAlarm = true
      ∧ (∀ a : Aisle, zoneOf a = z →
        (∀ o r st m, s.currentOrder? a = some (o, r) → r.stage = .run st → s.stageCommand? r st = some m →
          t.order? o = some { r with stage := .halted (Restart.mk st m (decide (st = .holding)) .fire) })
        ∧ ((s.shuttle a).state = .idle ∨ (s.shuttle a).state = .busy →
            (∀ c, (s.shuttle a).command = some c → c.motion ≠ .park ∧ s.commandExchange a = false) →
          (t.shuttle a).state = .busy ∧ (t.shuttle a).command = some ⟨.park, .sent, true⟩ ∧ (t.shuttle a).deadline = none
          ∧ t.slot a = some (.command .park true))
        ∧ ((s.shuttle a).state = .idle ∨ (s.shuttle a).state = .busy → ∀ c, (s.shuttle a).command = some c →
          (c.motion = .park →
            t.shuttle a = { s.shuttle a with command := some { c with fire := true }, deadline := none, revivalRetry := none }
            ∧ (∀ f, s.slot a = some (.command .park f) → t.slot a = some (.command .park true))
            ∧ (s.slot a = none → t.slot a = none))
          ∧ (c.motion ≠ .park → s.commandExchange a = true →
            t.shuttle a = { s.shuttle a with revivalRetry := none } ∧ t.slot a = s.slot a))
        ∧ ((s.shuttle a).state ≠ .idle → (s.shuttle a).state ≠ .busy →
          (t.shuttle a).state = (s.shuttle a).state ∧ t.slot a = none)
        ∧ (((s.shuttle a).state ≠ .idle ∧ (s.shuttle a).state ≠ .busy
              ∨ ∀ c, (s.shuttle a).command = some c → c.motion ≠ .park ∧ s.commandExchange a = false) →
            (∀ a', a' ≠ a → s.slot a' ≠ some .resume ∧ s.slot a' ≠ some .hostRevival) →
          (s.slot a = some .resume → t.win = (s.endRequest .wrongState {}).win)
          ∧ (s.slot a = some .hostRevival → t.win = (s.endRequest .zoneLocked {}).win))
        ∧ (∀ x, s.alc.exchange = some x → x.shuttle = a → t.alc.exchange = some { x with use := match x.kind, x.use with
            | .command _, u => u
            | .busyPoll, u => u
            | _, .discard => .discard
            | _, _ => .silenceAndPosition })
        ∧ (∀ b, Claim.restore a b ∉ t.ou.claims))
      ∧ (z = 3 → t.lc.lstop = true
        ∧ (∀ c, s.lc.crossing = some c → t.lc.crossing = some { c with state := .stopped })
        ∧ (∀ n, t.stationState n = match s.stationState n with
            | .closed => .fireHeld false | .opened => .fireHeld true | .fireHeld r => .fireHeld r)
        ∧ (∀ p, t.position p = if s.position p = .wanting then .empty else s.position p)
        ∧ (∀ p, t.fetchMark p = false ∧ t.dismissalMark p = false)
        ∧ (∀ a m f, s.slot a = some (.command m f) → m.atPort = true → t.slot a = none
            ∧ t.shuttle a = { s.shuttle a with command := none, deadline := none }
            ∧ (∀ o r, s.currentOrder? a = some (o, r) → r.stage = .run .handing → t.order? o = some { r with stage := .run .holding })
            ∧ (∀ o r, s.currentOrder? a = some (o, r) → r.stage = .run .takingOn → t.order? o = some r))))

/-- R146 to R149: the sealing condition of a zone, its deadline's expiry, which makes its IDLE and BUSY shuttles CAUGHT, each with
its capture (in shuttle order and before the orders finish: the model's reading, log entry 12), and what entering SEALED does: among
it, that the shuttles of the zone let their current orders go (R148) and that the answer of an exchange in progress with one of them
is to be discarded (R85). That the expiry acts whenever the zone is in ALARM, and changes nothing in any other state, is the model's
reading (log entry 19). -/
def Obligations.ZoneSealsByConditionOrDeadline : Prop :=
  ∀ (s : State) (z : ZoneNo),
    (s.phase = .running →
      (s.zoneAlarm z = true → exec (.zoneDeadlineExpiry z) s = .next ((s.expireZone z).settle))
      ∧ (s.zoneAlarm z = false → exec (.zoneDeadlineExpiry z) s = .next s))
    ∧ (z ≠ 3 → (s.sealable z = true ↔ ∀ a, zoneOf a = z → (s.shuttle a).state = .parked ∨ (s.shuttle a).state = .caught
        ∨ (s.shuttle a).state = .offline ∨ (s.shuttle a).state = .faulted))
    ∧ (s.sealable 3 = true ↔ ∀ a c, (s.shuttle a).command = some c → c.motion.atPort = true →
        c.mark = .sent ∧ s.commandExchange a = false)
    ∧ (s.zoneAlarm z = true → s.sealable z = true → s.trySeal z = s.sealZone z)
    ∧ (s.zoneAlarm z = false ∨ s.sealable z = false → s.trySeal z = s)
    ∧ (let t := s.sealZone z
      t.zone z = { s.zone z with state := .sealed, clr := true }
      ∧ t.pendingCause .zoneSealed = true
      ∧ (∀ a : Aisle, zoneOf a = z → t.slot a = none ∧ (t.shuttle a).command = none ∧ (t.shuttle a).deadline = none
          ∧ (t.shuttle a).state = (s.shuttle a).state ∧ (t.shuttle a).carried = (s.shuttle a).carried
          ∧ (∀ o r, s.currentOrder? a = some (o, r) →
              t.order? o = some
                { r with stage := .finished (if r.cancel then .cancelled else .fire), pendingOutcome := none }
              ∧ t.binRec? r.bin = (s.binRec? r.bin).map (fun b => { b with holder := none })
              ∧ (r.aisle = a → (t.shuttle a).order = none)))
      ∧ (∀ x, s.alc.exchange = some x →
          t.alc.exchange = some (if zoneOf x.shuttle = z then { x with use := .discard } else x))
      ∧ (s.alc.exchange = none → t.alc.exchange = none)
      ∧ (z = 3 → ∀ c, s.lc.crossing = some c → c.state = .stopped →
          (t.binRec? c.bin) = (s.binRec? c.bin).map fun r => { r with place := .stranded }))
    ∧ (∀ a : Aisle,
        ((s.shuttle a).state = .idle ∨ (s.shuttle a).state = .busy →
          (s.catchShuttle a).shuttle a = { s.shuttle a with state := .caught }
          ∧ (s.catchShuttle a).au.fault = some (captured
            { kind := .caught, shuttle := some a, order := (s.currentOrder? a).map (·.1)
              bin := match s.currentOrder? a with | some (_, r) => some r.bin | none => (s.shuttle a).carried
              stage := (s.currentOrder? a).bind fun q => q.2.stageReached
              code := none } s.au.fault))
        ∧ ((s.shuttle a).state ≠ .idle → (s.shuttle a).state ≠ .busy → s.catchShuttle a = s))
    ∧ s.expireZone z = ((aisles.filter fun a => decide (zoneOf a = z)).foldl (fun s a => s.catchShuttle a) s).sealZone z
    ∧ (let t := s.expireZone z
      t.zone z = { s.zone z with state := .sealed, clr := true }
      ∧ ∀ a : Aisle, zoneOf a = z →
        ((s.shuttle a).state = .idle ∨ (s.shuttle a).state = .busy → (t.shuttle a).state = .caught
          ∧ ∃ f, t.au.fault = some f ∧ (s.au.fault = none → f.first.kind = .caught))
        ∧ ((s.shuttle a).state ≠ .idle → (s.shuttle a).state ≠ .busy → (t.shuttle a).state = (s.shuttle a).state))

/-- R157 and R158: SET DEADLINE and READ ZONE. That bit 0 of A3 shows the condition of R147 for zone 3 in every zone state is the
model's reading of R158 (log entry 31). -/
def Obligations.ZoneDeadlinesAreSetAndRead : Prop :=
  (∀ (s : State), s.windowFree = true →
      (∀ z : ZoneNo, s.operands.cell 0 = z.val →
        Judged s .setDeadline 0x60
          [(decide (10 ≤ s.operands.cell 1 ∧ s.operands.cell 1 ≤ 240), .badOperand),
           (decide (s.zoneState z = .normal), .wrongState)]
          (State.requestDone 0x60 .ok { a0 := word s.tab.deadlines[z] }
            { s with tab.deadlines := s.tab.deadlines.set z (s.operands.cell 1) }))
      ∧ (3 < s.operands.cell 0 → exec .setDeadline s = .next (s.requestDone 0x60 .badOperand {})))
  ∧ (∀ (s : State) (z : ZoneNo), (s.enterAlarm z).zoneState z = .alarm s.tab.deadlines[z])
  ∧ (∀ (s : State), s.windowFree = true →
      (3 < s.operands.cell 0 → exec .readZone s = .next (s.requestDone 0x61 .badOperand {}))
      ∧ ∀ z : ZoneNo, s.operands.cell 0 = z.val → ∀ a3 : Word,
        (z ≠ 3 → a3 = word ((aisles.filter fun a => decide (zoneOf a = z)
          && decide ((s.shuttle a).state = .idle ∨ (s.shuttle a).state = .busy)).length)) →
        (z = 3 → a3 = word ((match s.lc.crossing with | some c => if c.state = .stopped then 2 else 0 | none => 0)
          + (if aisles.any s.reachesPort then 1 else 0))) →
        exec .readZone s = .next (s.requestDone 0x61 .ok
          { a0 := bytePair (s.zoneState z).code ((if (s.zone z).line then 2 else 0) + (if (s.zone z).clr then 1 else 0))
            a1 := word s.tab.deadlines[z]
            a2 := match s.zoneState z with | .alarm n => word n | _ => 0xFFFF
            a3 := a3 }))

/-- R175 and R176: READ FAULT and CLEAR FAULT, the taking of a capture, and the law that a FULL record keeps its first fault until
it is EMPTY again. The kind field of an EMPTY record is open: the clause holds of whatever value stands there. -/
def Obligations.FaultRecordKeepsItsFirstFault : Prop :=
  (∀ (s : State) (c : Capture),
      (s.au.fault = none → (s.capture c).au.fault = some ⟨c, false⟩)
      ∧ (∀ f, s.au.fault = some f → (s.capture c).au.fault = some { f with further := true })
      ∧ (s.capture c).pendingCause .faultCaptured = true)
  ∧ (∀ (s : State), s.windowFree = true →
      (∀ f, s.au.fault = some f →
        let flag (b : Bool) (n : Nat) : Nat := if b then n else 0
        let a : Answer :=
          { a0 := word (32768 + flag f.further 16384 + flag f.first.shuttle.isSome 4096 + flag f.first.order.isSome 2048
              + flag f.first.bin.isSome 1024 + flag f.first.stage.isSome 512 + flag f.first.code.isSome 256 + f.first.kind.code)
            a1 := bytePair (match f.first.shuttle with | some a => a.val | none => 0xFF)
              (match f.first.order with | some o => o.val | none => 0xFF)
            a2 := match f.first.bin with | some b => word b.val | none => 0xFFFF
            a3 := bytePair (match f.first.stage with | some st => st.code | none => 0xFF)
              (match f.first.code with | some c => c.toNat | none => 0xFF) }
        exec .readFault s = .next (s.requestDone 0x62 .ok a)
        ∧ exec .clearFault s = .next (State.requestDone 0x63 .ok a { s with au.fault := none }))
      ∧ (s.au.fault = none → ∃ kind : Word, kind.toNat < 8
        ∧ exec .readFault s = .next (s.requestDone 0x62 .ok { a0 := kind, a1 := 0xFFFF, a2 := 0xFFFF, a3 := 0xFFFF })
        ∧ exec .clearFault s = .next (s.requestDone 0x63 .ok { a0 := kind, a1 := 0xFFFF, a2 := 0xFFFF, a3 := 0xFFFF })))
  ∧ (∀ (s t : State) (f : FaultRecord), step s = .next t → s.au.fault = some f →
      t.au.fault = none ∨ ∃ g, t.au.fault = some g ∧ g.first = f.first)

/-- R150 to R152, R154 and R155: a release takes three writes to RELEASE, judged against the progress; it takes the zone to RECOVERY, with
a revival STATUS for each shuttle at rest, or the lane re-run; and a zone whose recovery is done becomes NORMAL. That a write puts its
code over STARTING too is the model's choice (log entry 33). -/
def Obligations.ReleaseTakesThreeWrites : Prop :=
  (∀ (s : State) (v : Word), s.windowFree = true →
      let refused : State := { s with win.release := .none, win.code := .sequenceRefused }
      (s.win.release = .none →
        (∀ z : ZoneNo, v.toNat = z.val → exec (.releaseWrite v) s = .next { s with win.release := .first z, win.code := .ok })
        ∧ (3 < v.toNat → exec (.releaseWrite v) s = .next refused))
      ∧ (∀ z, s.win.release = .first z →
        (v.toNat = 0xFFFF - z.val → exec (.releaseWrite v) s = .next { s with win.release := .second z, win.code := .ok })
        ∧ (v.toNat ≠ 0xFFFF - z.val → exec (.releaseWrite v) s = .next refused))
      ∧ (∀ z, s.win.release = .second z →
        (v.toNat = z.val → s.zoneState z = .sealed → (s.zone z).line = false → exec (.releaseWrite v) s =
          .next ((State.releaseZone z { s with win.release := .none, win.code := .zoneReleased }).settle))
        ∧ (v.toNat ≠ z.val ∨ s.zoneState z ≠ .sealed ∨ (s.zone z).line = true → exec (.releaseWrite v) s = .next refused)))
  ∧ (∀ (s : State) (z : ZoneNo),
      let t := s.releaseZone z
      t.zone z = { s.zone z with state := .recovery, clr := false }
      ∧ (∀ a, zoneOf a = z →
        ((s.shuttle a).state = .parked ∨ (s.shuttle a).state = .caught →
          (t.shuttle a).state = .parked ∧ t.slot a = some .revival)
        ∧ ((s.shuttle a).state ≠ .parked → (s.shuttle a).state ≠ .caught →
          (t.shuttle a) = (s.shuttle a) ∧ t.slot a = s.slot a))
      ∧ (z = 3 → t.lc.lstop = false ∧ ∀ c, s.lc.crossing = some c → c.state = .stopped →
        t.lc.crossing = some { c with state := .running 30 } ∧ t.lc.lsrc = BitVec.ofNat 4 c.source.code
        ∧ t.lc.ldst = BitVec.ofNat 4 c.dest.code ∧ t.lc.lgoPulses = s.lc.lgoPulses + 1
        ∧ ∀ r, s.binRec? c.bin = some r → r.place = .stranded → t.binRec? c.bin = some { r with place := .crossing }))
  ∧ (∀ (s : State) (z : ZoneNo),
      (z ≠ 3 → (s.recovered z = true ↔ ∀ a, zoneOf a = z → (s.shuttle a).state ≠ .parked ∧ (s.shuttle a).state ≠ .caught
        ∧ (s.shuttle a).revivalRetry = none ∧ s.slot a ≠ some .revival
        ∧ (∀ x, s.alc.exchange = some x → x.shuttle = a → x.kind ≠ .revival)
        ∧ (∀ o r, s.order? o = some r → r.kind = .restore → r.source = .recovery → r.aisle = a → r.isFinished = true)
        ∧ s.claims a.val = false))
      ∧ (s.recovered 3 = true ↔ s.lc.crossing = none)
      ∧ (s.zoneState z ≠ .recovery ∨ s.recovered z = false → s.tryRecover z = s)
      ∧ (s.zoneState z = .recovery → s.recovered z = true →
        (s.tryRecover z).zoneState z = .normal ∧ (s.tryRecover z).pendingCause .zoneRecovered = true
        ∧ (z = 3 → ∀ n, (s.tryRecover z).stationState n = match s.stationState n with
            | .fireHeld true => .opened | .fireHeld false => .closed | st => st)))

/-! ## The request window (Chapter 9) -/

/-- R164 and R169: while BUSY is set or start-up runs, every write to REQUEST or RELEASE is ignored, sets COLLIDED and makes the
release progress none; during start-up so do writes to ENABLE and LEVELS, the view cells read 0, and no event but RESET, START_UP
and a pin of the fire panel does anything (for the others the model's reading is log entry 19). -/
def Obligations.BusyWindowCollides : Prop :=
  (∀ (s : State) (v : Word), s.windowFree = false →
      let collided : State := { s with win.collided := true, win.release := .none }
      (∀ i n, requestCode? i = some n → exec i s = .next collided)
      ∧ exec (.undefinedRequest v) s = .next collided ∧ exec (.requestCollision v) s = .next collided
      ∧ exec (.windowCellWrite 0 v) s = .next collided ∧ exec (.releaseWrite v) s = .next collided)
  ∧ (∀ (s : State) (v : Word), s.phase = .starting →
      let collided : State := { s with win.collided := true, win.release := .none }
      exec (.enableWrite v) s = .next collided ∧ exec (.levelsWrite v) s = .next collided
      ∧ (∀ cell : BitVec 5, 17 ≤ cell.toNat → s.readCell cell = 0)
      ∧ ∀ (z : ZoneNo) (a : Aisle) (chars : List LinkChar) (i : Instr), i ∈
          ([.zoneDeadlineExpiry z, .revivalRetryDue a, .offlinePollDue a, .linkGrant, .answerReceived chars, .answerInvalid,
            .replyWindowExpiry, .motionDeadlineExpiry a, .auditCursorStep, .ldone, .lflt, .crossingDeadlineExpiry] : List Instr) →
        exec i s = .next s)

/-- R161 to R163, R106 and R178: a write of a defined code to REQUEST is its request, an undefined code is refused with BAD_OPERAND;
what writes to the other cells store; what every cell reads (R169, R172, R173: CAUSE the cause to serve, ENABLE and LEVELS the bits
stored; CAUSE and the view cells 0 during start-up), and the STATE read, which clears COLLIDED. That RELEASE reads 0 in its zone
field too with no sequence in progress is the model's reading (log entry 34). That P0 to P5 and CONTEXT store while RESET is held
too is the model's choice (log entry 36). A value or a cell that names another row's command acts as that command (log entry 20). -/
def Obligations.WindowCellsReadAndWrite : Prop :=
  ∀ (s : State) (v : Word),
    (∀ i n, requestCode? i = some n → v.toNat = n →
      exec (.windowCellWrite 0 v) s = exec i s ∧ exec (.undefinedRequest v) s = exec i s
      ∧ exec (.requestCollision v) s = exec i s)
    ∧ ((∀ i, requestCode? i ≠ some v.toNat) → s.windowFree = true →
      exec (.undefinedRequest v) s = .next (s.requestDone v .badOperand {})
      ∧ exec (.requestCollision v) s = .next (s.requestDone v .badOperand {})
      ∧ exec (.windowCellWrite 0 v) s = .next (s.requestDone v .badOperand {}))
    ∧ exec (.windowCellWrite 2 v) s = .next { s with win.context := v, win.release := .none }
    ∧ (∀ k : Fin 6, exec (.windowCellWrite (BitVec.ofNat 5 (k.val + 3)) v) s =
        .next { s with win.p := s.win.p.set k v, win.release := .none })
    ∧ (∀ cell : BitVec 5, cell.toNat = 1 ∨ (9 ≤ cell.toNat ∧ cell.toNat ≤ 12) ∨ (17 ≤ cell.toNat ∧ cell.toNat ≤ 23) →
        exec (.windowCellWrite cell v) s = .next { s with win.release := .none })
    ∧ (∀ cell : BitVec 5, 24 ≤ cell.toNat → exec (.windowCellWrite cell v) s = .next s ∧ s.readCell cell = 0)
    ∧ exec (.windowCellWrite 13 v) s = exec (.causeWrite v) s ∧ exec (.windowCellWrite 14 v) s = exec (.enableWrite v) s
    ∧ exec (.windowCellWrite 15 v) s = exec (.levelsWrite v) s ∧ exec (.windowCellWrite 16 v) s = exec (.releaseWrite v) s
    ∧ exec .stateRead s = .next { s with dataOut := s.readCell 1, win.collided := false }
    ∧ s.readCell 1 = word ((if s.win.busy then 32768 else 0) + (if s.win.collided then 16384 else 0) + s.win.code.value)
    ∧ s.readCell 0 = s.win.request ∧ s.readCell 2 = s.win.context
    ∧ (∀ k : Fin 6, s.readCell (BitVec.ofNat 5 (k.val + 3)) = s.win.p[k])
    ∧ (∀ n : Fin 16, (s.readCell 14).getLsbD n.val = s.win.enable.getLsbD n.val
        ∧ (s.readCell 15).getLsbD n.val = s.win.levels.getLsbD n.val)
    ∧ (s.phase = .running → (s.readCell 13 = 0 ↔ ∀ c : Cause, s.signalled c = false)
        ∧ ∀ c : Cause, s.readCell 13 = word c.number ↔ s.signalled c = true ∧ ∀ c' : Cause, s.signalled c' = true →
            s.levelOf c'.group ≤ s.levelOf c.group ∧ (s.levelOf c'.group = s.levelOf c.group → c.number ≤ c'.number))
    ∧ (s.phase = .starting → s.readCell 13 = 0
        ∧ ∀ cell : BitVec 5, 17 ≤ cell.toNat → s.readCell cell = 0)
    ∧ s.readCell 9 = s.win.a.a0 ∧ s.readCell 10 = s.win.a.a1 ∧ s.readCell 11 = s.win.a.a2 ∧ s.readCell 12 = s.win.a.a3
    ∧ (∀ z : ZoneNo, (s.win.release = .none → s.readCell 16 = 0) ∧ (s.win.release = .first z → s.readCell 16 = word (1 + 16 * z.val))
        ∧ (s.win.release = .second z → s.readCell 16 = word (2 + 16 * z.val)))
    ∧ (s.phase = .running →
      let bin (b : Option BinNo) : Word := match b with | some b => word b.val | none => 0xFFFF
      (4 < s.win.context.toNat → ∀ cell : BitVec 5, 17 ≤ cell.toNat → s.readCell cell = 0)
      ∧ (∀ n : StationNo, s.win.context.toNat = n.val →
        s.readCell 17 = (match s.stationState n with
          | .closed => 0 | .opened => 1 | .fireHeld false => 2 | .fireHeld true => 6)
        ∧ s.readCell 21 = bin (s.stationOut n))
      ∧ (∀ k : PickNo, s.win.context.toNat = k.val →
        s.readCell 18 = bin (s.presentationQueue k).head? ∧ s.readCell 19 = word (s.presentationQueue k).length
        ∧ s.readCell 20 = word (s.reserved k) ∧ s.readCell 22 = 0xFFFF ∧ s.readCell 23 = 0xFFFF)
      ∧ (s.win.context.toNat = 4 → s.readCell 18 = 0xFFFF ∧ s.readCell 19 = 0 ∧ s.readCell 20 = 0
        ∧ s.readCell 22 = bin (s.position .intake).bin? ∧ s.readCell 23 = bin (s.position .hold).bin?))

/-- R165: a request that ends refused has changed nothing but the window. -/
def Obligations.RefusedRequestChangesWindowOnly : Prop :=
  ∀ (s t : State) (i : Instr) (n : Nat), requestCode? i = some n → s.windowFree = true → exec i s = .next t →
    t.win.busy = false → t.win.code.refuses = true → t = s.requestDone (word n) t.win.code {}

/-! ## Attention (Chapter 10) -/

/-- R171 to R174: writes to ENABLE, LEVELS and CAUSE; which causes are pending; a cause is signalled while pending and enabled, ATTN
is asserted while one is, and CAUSE reads the signalled cause of the highest level, the first group and the lowest number. During
start-up a CAUSE write is ignored, CAUSE reads 0 and ATTN is released. -/
def Obligations.AttentionServesTheHighestGroup : Prop :=
  (∀ (s : State) (v : Word), s.phase = .running →
      (∃ t, exec (.enableWrite v) s = .next t ∧ t = { s with win.enable := t.win.enable, win.release := .none }
        ∧ ∀ n : Fin 16, (t.readCell 14).getLsbD n.val = (decide (n.val < 11) && v.getLsbD n.val))
      ∧ (∃ t, exec (.levelsWrite v) s = .next t ∧ t = { s with win.levels := t.win.levels, win.release := .none }
        ∧ (∀ n : Fin 16, (t.readCell 15).getLsbD n.val = (decide (n.val < 6) && v.getLsbD n.val))
        ∧ t.levelOf .a = 3 ∧ t.levelOf .b = v.toNat % 4 ∧ t.levelOf .c = v.toNat / 4 % 4 ∧ t.levelOf .d = v.toNat / 16 % 4)
      ∧ (∃ t, exec (.causeWrite v) s = .next t ∧ t = { s with au.latches := t.au.latches, win.release := .none }
        ∧ ∀ c : Cause, t.pendingCause c = (s.pendingCause c && !(c.isEvent && v.getLsbD (c.number - 1)))))
  ∧ (∀ (s : State) (v : Word), s.phase = .starting →
      exec (.causeWrite v) s = .next { s with win.collided := true, win.release := .none } ∧ s.readCell 13 = 0
      ∧ s.attn = false)
  ∧ (∀ s : State,
      (∀ c : Cause, c.isEvent = true → s.pendingCause c = s.au.latches.getLsbD (c.number - 1))
      ∧ (s.pendingCause .faultCaptured = true ↔ s.au.fault ≠ none)
      ∧ (s.pendingCause .orderFinished = true ↔ ∃ o r out, s.order? o = some r ∧ r.stage = .finished out)
      ∧ (s.pendingCause .returnWaiting = true ↔ ∃ t ∈ s.dropList, ∃ i b, s.item? t = some i
          ∧ s.position (if i.holds = [] then .intake else .hold) = .presented b)
      ∧ (∀ c : Cause, s.signalled c = true ↔ s.pendingCause c = true ∧ s.win.enable.getLsbD (c.number - 1) = true)
      ∧ (s.phase = .running →
        (s.attn = true ↔ ∃ c : Cause, s.signalled c = true)
        ∧ ((∀ c : Cause, s.signalled c = false) → s.readCell 13 = 0)
        ∧ ((∃ c : Cause, s.signalled c = true) → ∃ c : Cause, s.signalled c = true ∧ s.readCell 13 = word c.number
            ∧ ∀ c' : Cause, s.signalled c' = true → s.levelOf c'.group ≤ s.levelOf c.group
              ∧ (s.levelOf c'.group = s.levelOf c.group → c.number ≤ c'.number))))

/-! ## The resets -/

/-- R168, R22 and R160: RESET CONTROLLER gives every block its soft-reset values, answers with the bins it made UNVERIFIED and the
entries it freed, and leaves each zone NORMAL or SEALED by the state it kept. R136: the drop list is made anew from the item table; R69,
R73, R78, R93: the shuttle records, the line, the rotations and the grant pointer. That the count of LGO pulses goes on is the
model's choice (log entry 8). -/
def Obligations.SoftResetKeepsTheRecords : Prop :=
  ∀ (s : State),
    (s.windowFree = true → exec .resetController s =
      .next (((State.softReset (s.storeRequest 0x70))).endRequest .ok
        { a0 := word ((s.tab.bins.filter fun e => match e.2.place with
            | .onShuttle _ => true | .crossing => true | .stranded => true | _ => false).length)
          a1 := word ((orderNumbers.filter fun o => (s.order? o).isSome).length) }))
    ∧ s.softReset = s.softResetBlocks.settle
    ∧ (let u := s.softResetBlocks
      (∀ b, u.binRec? b = (s.binRec? b).map fun r => { r with holder := none, place := match r.place with
          | .onShuttle _ => .unverified | .crossing => .unverified | .stranded => .unverified | p => p })
      ∧ u.tab = { s.tab with bins := u.tab.bins }
      ∧ (∀ o, u.order? o = none) ∧ (∀ a, u.queue a = []) ∧ u.ou.claims = [] ∧ u.ou.cursor = none ∧ u.ou.sweep = false
      ∧ u.ou.auditCount = 0 ∧ u.ou.quiet = .active
      ∧ u.dropList = (s.tab.items.filter fun e => decide (e.2.state = .dropped)).map (·.1)
      ∧ (∀ a, u.slot a = none ∧ u.shuttle a =
          { state := .offline, carried := none, order := none, command := none, deadline := none, position := .rack 0, silence := 3
            faultCode := 0, pollWait := none, revivalRetry := none })
      ∧ u.alc.last2 = 5 ∧ u.alc.last3 = 5 ∧ u.alc.last4 = 5 ∧ u.alc.line = [{ ldir := false, ltx := true }]
      ∧ u.lc.pointer = 10 ∧ u.lc.lgoPulses = s.lc.lgoPulses
      ∧ u.alc.exchange = none ∧ u.lc.crossing = none ∧ u.lc.lsrc = 0 ∧ u.lc.ldst = 0 ∧ u.lc.lstop = s.lc.lstop
      ∧ u.lc.outPlaces = s.lc.outPlaces ∧ u.lc.inPlaces = s.lc.inPlaces
      ∧ (∀ n, u.stationState n = s.stationState n ∧ u.stationOut n = s.stationOut n)
      ∧ (∀ k, u.presentationQueue k = s.presentationQueue k ∧ u.reserved k = 0)
      ∧ (∀ p, ((∃ e, s.position p = .arriving e) → u.position p = .empty)
          ∧ (∀ b, s.position p = .presented b ∨ s.position p = .fullWaiting b → u.position p = s.position p)
          ∧ u.fetchMark p = false ∧ u.dismissalMark p = false)
      ∧ u.fiu = s.fiu ∧ u.au.latches = 0 ∧ u.au.fault = s.au.fault
      ∧ u.win.p = Vector.replicate 6 0 ∧ u.win.context = 0 ∧ u.win.enable = 0 ∧ u.win.levels = 0 ∧ u.win.release = .none
      ∧ u.win.collided = s.win.collided)
    ∧ (∀ z, s.softReset.zoneState z = match s.zoneState z with
        | .normal => .normal | .alarm _ => .sealed | .sealed => .sealed | .recovery => .normal)
    ∧ (∀ z, s.zoneAlarm z = true → s.softReset.pendingCause .zoneSealed = true)
    ∧ (∀ z, s.zoneState z = .recovery → s.softReset.pendingCause .zoneRecovered = true)

/-- R20 to R22, R159, R169 and R170: RESET sets the window as R169 gives; START_UP deals with the pending-update record, formats a
memory without its mark, loses the places of bins under way, builds the volatile state anew, and seals the zones whose lines are
active; the drop list is made anew from the item table (R136), and the shuttle records, the line, the rotations, the grant pointer
and the lane lines stand as their chapters give. A formatted memory with inactive lines gives the model's reset state (log entry
2). Four clauses are the model's own: RESET leaves every record but the window and the link as it stands (log entry 4), a lost
memory is one without its mark (log entry 3), START_UP while the part runs changes nothing (log entry 19), and the count of LGO
pulses goes on (log entry 8). -/
def Obligations.PowerOnResetRebuildsTheState : Prop :=
  (∀ (s : State) (m : MemoryFate),
      exec (.resetAsserted m) s = .next { s with
        formatMark := (if m = .lost then false else s.formatMark)
        win := { request := 0, busy := true, collided := true, code := .starting, context := 0, p := Vector.replicate 6 0, a := {}
                 enable := 0, levels := 0, release := .none, waiting := none }
        phase := .starting, alc.exchange := none, alc.line := [{ ldir := false, ltx := true }] })
  ∧ (∀ s : State,
      (s.phase = .running → exec .startUp s = .next s)
      ∧ (s.phase = .starting → exec .startUp s = .next s.startUp)
      ∧ (let u := s.startUp
        let old : Tables := match s.pendingUpdate with | some w => if w.complete then w.image else s.tab | none => s.tab
        u.formatMark = true ∧ u.pendingUpdate = none ∧ u.phase = .running ∧ u.win = { s.win with busy := false }
        ∧ (s.formatMark = true → u.tab = { old with bins := u.tab.bins }
          ∧ ∀ b : BinNo, u.binRec? b = (tableFind b.val old.bins).map fun r => { r with
              holder := none
              place := match r.place with
                | .home => .home | .unverified => .unverified | .missing => .missing | _ => .unverified })
        ∧ (s.formatMark = false → u.tab.bins = [] ∧ u.tab.items = [] ∧ u.tab.patrons = [] ∧ u.tab.day = 0
          ∧ (∀ g, u.segment g = { valid := false, aisle := 0, base := 0, length := 1, direction := .up, cls := .openClass
                                  changed := false })
          ∧ u.tab.categories = #v[⟨20, 28⟩, ⟨40, 90⟩, ⟨60, 120⟩, ⟨63, 180⟩]
          ∧ (∀ n : StationNo, u.tab.supervised[n] = false) ∧ ∀ z : ZoneNo, u.tab.deadlines[z] = 45)
        ∧ (∀ o, u.order? o = none) ∧ (∀ a, u.queue a = []) ∧ u.ou.claims = [] ∧ u.ou.quiet = .active ∧ u.ou.cursor = none
        ∧ u.ou.sweep = false ∧ u.ou.auditCount = 0
        ∧ u.dropList = (u.tab.items.filter fun e => decide (e.2.state = .dropped)).map (·.1)
        ∧ (∀ a, u.slot a = none ∧ u.shuttle a =
            { state := .offline, carried := none, order := none, command := none, deadline := none, position := .rack 0
              silence := 3, faultCode := 0, pollWait := none, revivalRetry := none })
        ∧ u.alc.last2 = 5 ∧ u.alc.last3 = 5 ∧ u.alc.last4 = 5 ∧ u.alc.line = [{ ldir := false, ltx := true }]
        ∧ u.lc.pointer = 10 ∧ u.lc.lsrc = 0 ∧ u.lc.ldst = 0 ∧ u.lc.lgoPulses = s.lc.lgoPulses
        ∧ u.alc.exchange = none ∧ u.lc.crossing = none ∧ (∀ a, u.outPlace a = none ∧ u.inPlace a = none)
        ∧ (∀ k, u.presentationQueue k = [] ∧ u.reserved k = 0) ∧ (∀ n, u.stationOut n = none) ∧ (∀ p, u.position p = .empty)
        ∧ u.au.fault = none
        ∧ (∀ z : ZoneNo, u.zone z = if s.fiu.alm[z] then { state := .sealed, line := true, clr := true }
            else { state := .normal, line := false, clr := false })
        ∧ u.lc.lstop = s.fiu.alm[frontHall]
        ∧ (∀ n, u.stationState n = if s.fiu.alm[frontHall] then .fireHeld false else .closed)
        ∧ (∀ c, u.au.latches.getLsbD (Cause.number c - 1) = (decide (c = .zoneAlarm ∨ c = .zoneSealed) && s.fiu.alm.toList.any id))))
  ∧ (∀ s : State, s.fiu.alm = Vector.replicate 4 false → s.pending = [] → s.dataOut = 0 → s.lc.lgoPulses = 0 →
      (s.assertReset .lost).startUp = State.reset)

/-! ## The step -/

/-- The step takes the command at the front of the queue with the queue's rest; on an empty queue one second of the block's clock passes, in
which countdowns fall and the commands that come due join the queue (the model's choice: log entry 1); and every command answers
a next state. -/
def Obligations.StepRunsFrontCommand : Prop :=
  (∀ (s : State) (c : Instr) (rest : List Instr), s.pending = c :: rest → step s = exec c { s with pending := rest })
  ∧ (∀ (s : State) (i : Instr), ∃ t, exec i s = .next t)
  ∧ (∀ s : State, s.pending = [] → s.phase = .starting → step s = .next s)
  ∧ (∀ s : State, s.pending = [] → s.phase = .running → ∃ t, step s = .next t
      ∧ t.tab = s.tab ∧ t.dropList = s.dropList ∧ t.ou = s.ou ∧ t.su = s.su ∧ t.au = s.au ∧ t.win = s.win
      ∧ (∀ z n, s.zoneState z = .alarm n →
          t.zoneState z = .alarm (n - 1) ∧ (n = 1 → Instr.zoneDeadlineExpiry z ∈ t.pending))
      ∧ (∀ a n, (s.shuttle a).deadline = some n →
          (t.shuttle a).deadline = some (n - 1) ∧ (n = 1 → Instr.motionDeadlineExpiry a ∈ t.pending))
      ∧ (∀ a n, (s.shuttle a).pollWait = some n →
          (t.shuttle a).pollWait = some (n - 1) ∧ (n = 1 → Instr.offlinePollDue a ∈ t.pending))
      ∧ (∀ a n, (s.shuttle a).revivalRetry = some n →
          (t.shuttle a).revivalRetry = some (n - 1) ∧ (n = 1 → Instr.revivalRetryDue a ∈ t.pending))
      ∧ (∀ c n, s.lc.crossing = some c → c.state = .running n →
          t.lc.crossing = some { c with state := .running (n - 1) } ∧ (n = 1 → Instr.crossingDeadlineExpiry ∈ t.pending))
      ∧ (∀ x, s.alc.exchange = some x → Instr.replyWindowExpiry ∈ t.pending))

/-! ## What every step keeps -/

/-- A step keeps the laws: the retained memory whole, CLR asserted exactly while SEALED, LSTOP asserted exactly while zone 3 is ALARM or
SEALED, latches for event causes only, BUSY set through a power-on reset; and, with the memory whole, the settings in their
ranges. -/
def Obligations.SafeStatesStaySafe : Prop :=
  (∀ s t : State, s.safe = true → step s = .next t → t.safe = true)
  ∧ (∀ s t : State, s.memoryWhole = true → s.SettingsLaw → step s = .next t → t.SettingsLaw)

/-- R136: a step keeps the drop list the list of the DROPPED items, each once. -/
def Obligations.DropListNamesDroppedItems : Prop :=
  ∀ s t : State, s.memoryWhole = true → s.DropLaw → step s = .next t → t.DropLaw

/-- R24: a step keeps every bin's item count and picked-out count in agreement with the items' states. -/
def Obligations.CountsMatchTheItems : Prop :=
  ∀ s t : State, s.memoryWhole = true → s.CountLaw → step s = .next t → t.CountLaw

/-- The reset state satisfies every law that a step keeps. -/
def Obligations.ResetStateHoldsTheLaws : Prop :=
  State.reset.safe = true ∧ State.reset.SettingsLaw ∧ State.reset.DropLaw ∧ State.reset.CountLaw
end

