-- ==== Sys2Proof/Laws/State.lean ====
section
/-! SUPPORT. What each primitive update of State writes and leaves, one lemma per field per update, each true by rfl. -/

namespace Sys2Proof.Machine

variable (s : State)

/-! ## putSegment -/

@[simp] theorem State.putSegment_formatMark (g : SegNo) (d : Segment) : (s.putSegment g d).formatMark = s.formatMark := rfl
@[simp] theorem State.putSegment_pendingUpdate (g : SegNo) (d : Segment) :
    (s.putSegment g d).pendingUpdate = s.pendingUpdate := rfl
@[simp] theorem State.putSegment_tab_segments (g : SegNo) (d : Segment) :
    (s.putSegment g d).tab.segments = s.tab.segments.set g d := rfl
@[simp] theorem State.putSegment_tab_bins (g : SegNo) (d : Segment) : (s.putSegment g d).tab.bins = s.tab.bins := rfl
@[simp] theorem State.putSegment_tab_items (g : SegNo) (d : Segment) : (s.putSegment g d).tab.items = s.tab.items := rfl
@[simp] theorem State.putSegment_tab_patrons (g : SegNo) (d : Segment) :
    (s.putSegment g d).tab.patrons = s.tab.patrons := rfl
@[simp] theorem State.putSegment_tab_categories (g : SegNo) (d : Segment) :
    (s.putSegment g d).tab.categories = s.tab.categories := rfl
@[simp] theorem State.putSegment_tab_day (g : SegNo) (d : Segment) : (s.putSegment g d).tab.day = s.tab.day := rfl
@[simp] theorem State.putSegment_tab_supervised (g : SegNo) (d : Segment) :
    (s.putSegment g d).tab.supervised = s.tab.supervised := rfl
@[simp] theorem State.putSegment_tab_deadlines (g : SegNo) (d : Segment) :
    (s.putSegment g d).tab.deadlines = s.tab.deadlines := rfl
@[simp] theorem State.putSegment_dropList (g : SegNo) (d : Segment) : (s.putSegment g d).dropList = s.dropList := rfl
@[simp] theorem State.putSegment_ou (g : SegNo) (d : Segment) : (s.putSegment g d).ou = s.ou := rfl
@[simp] theorem State.putSegment_alc (g : SegNo) (d : Segment) : (s.putSegment g d).alc = s.alc := rfl
@[simp] theorem State.putSegment_lc (g : SegNo) (d : Segment) : (s.putSegment g d).lc = s.lc := rfl
@[simp] theorem State.putSegment_su (g : SegNo) (d : Segment) : (s.putSegment g d).su = s.su := rfl
@[simp] theorem State.putSegment_fiu (g : SegNo) (d : Segment) : (s.putSegment g d).fiu = s.fiu := rfl
@[simp] theorem State.putSegment_au (g : SegNo) (d : Segment) : (s.putSegment g d).au = s.au := rfl
@[simp] theorem State.putSegment_win (g : SegNo) (d : Segment) : (s.putSegment g d).win = s.win := rfl
@[simp] theorem State.putSegment_phase (g : SegNo) (d : Segment) : (s.putSegment g d).phase = s.phase := rfl
@[simp] theorem State.putSegment_dataOut (g : SegNo) (d : Segment) : (s.putSegment g d).dataOut = s.dataOut := rfl
@[simp] theorem State.putSegment_pending (g : SegNo) (d : Segment) : (s.putSegment g d).pending = s.pending := rfl

/-! ## putBin -/

@[simp] theorem State.putBin_formatMark (b : BinNo) (r : BinRec) : (s.putBin b r).formatMark = s.formatMark := rfl
@[simp] theorem State.putBin_pendingUpdate (b : BinNo) (r : BinRec) : (s.putBin b r).pendingUpdate = s.pendingUpdate := rfl
@[simp] theorem State.putBin_tab_segments (b : BinNo) (r : BinRec) : (s.putBin b r).tab.segments = s.tab.segments := rfl
@[simp] theorem State.putBin_tab_bins (b : BinNo) (r : BinRec) :
    (s.putBin b r).tab.bins = tableInsert b.val r s.tab.bins := rfl
@[simp] theorem State.putBin_tab_items (b : BinNo) (r : BinRec) : (s.putBin b r).tab.items = s.tab.items := rfl
@[simp] theorem State.putBin_tab_patrons (b : BinNo) (r : BinRec) : (s.putBin b r).tab.patrons = s.tab.patrons := rfl
@[simp] theorem State.putBin_tab_categories (b : BinNo) (r : BinRec) :
    (s.putBin b r).tab.categories = s.tab.categories := rfl
@[simp] theorem State.putBin_tab_day (b : BinNo) (r : BinRec) : (s.putBin b r).tab.day = s.tab.day := rfl
@[simp] theorem State.putBin_tab_supervised (b : BinNo) (r : BinRec) :
    (s.putBin b r).tab.supervised = s.tab.supervised := rfl
@[simp] theorem State.putBin_tab_deadlines (b : BinNo) (r : BinRec) : (s.putBin b r).tab.deadlines = s.tab.deadlines := rfl
@[simp] theorem State.putBin_dropList (b : BinNo) (r : BinRec) : (s.putBin b r).dropList = s.dropList := rfl
@[simp] theorem State.putBin_ou (b : BinNo) (r : BinRec) : (s.putBin b r).ou = s.ou := rfl
@[simp] theorem State.putBin_alc (b : BinNo) (r : BinRec) : (s.putBin b r).alc = s.alc := rfl
@[simp] theorem State.putBin_lc (b : BinNo) (r : BinRec) : (s.putBin b r).lc = s.lc := rfl
@[simp] theorem State.putBin_su (b : BinNo) (r : BinRec) : (s.putBin b r).su = s.su := rfl
@[simp] theorem State.putBin_fiu (b : BinNo) (r : BinRec) : (s.putBin b r).fiu = s.fiu := rfl
@[simp] theorem State.putBin_au (b : BinNo) (r : BinRec) : (s.putBin b r).au = s.au := rfl
@[simp] theorem State.putBin_win (b : BinNo) (r : BinRec) : (s.putBin b r).win = s.win := rfl
@[simp] theorem State.putBin_phase (b : BinNo) (r : BinRec) : (s.putBin b r).phase = s.phase := rfl
@[simp] theorem State.putBin_dataOut (b : BinNo) (r : BinRec) : (s.putBin b r).dataOut = s.dataOut := rfl
@[simp] theorem State.putBin_pending (b : BinNo) (r : BinRec) : (s.putBin b r).pending = s.pending := rfl

/-! ## eraseBin -/

@[simp] theorem State.eraseBin_formatMark (b : BinNo) : (s.eraseBin b).formatMark = s.formatMark := rfl
@[simp] theorem State.eraseBin_pendingUpdate (b : BinNo) : (s.eraseBin b).pendingUpdate = s.pendingUpdate := rfl
@[simp] theorem State.eraseBin_tab_segments (b : BinNo) : (s.eraseBin b).tab.segments = s.tab.segments := rfl
@[simp] theorem State.eraseBin_tab_bins (b : BinNo) : (s.eraseBin b).tab.bins = tableErase b.val s.tab.bins := rfl
@[simp] theorem State.eraseBin_tab_items (b : BinNo) : (s.eraseBin b).tab.items = s.tab.items := rfl
@[simp] theorem State.eraseBin_tab_patrons (b : BinNo) : (s.eraseBin b).tab.patrons = s.tab.patrons := rfl
@[simp] theorem State.eraseBin_tab_categories (b : BinNo) : (s.eraseBin b).tab.categories = s.tab.categories := rfl
@[simp] theorem State.eraseBin_tab_day (b : BinNo) : (s.eraseBin b).tab.day = s.tab.day := rfl
@[simp] theorem State.eraseBin_tab_supervised (b : BinNo) : (s.eraseBin b).tab.supervised = s.tab.supervised := rfl
@[simp] theorem State.eraseBin_tab_deadlines (b : BinNo) : (s.eraseBin b).tab.deadlines = s.tab.deadlines := rfl
@[simp] theorem State.eraseBin_dropList (b : BinNo) : (s.eraseBin b).dropList = s.dropList := rfl
@[simp] theorem State.eraseBin_ou (b : BinNo) : (s.eraseBin b).ou = s.ou := rfl
@[simp] theorem State.eraseBin_alc (b : BinNo) : (s.eraseBin b).alc = s.alc := rfl
@[simp] theorem State.eraseBin_lc (b : BinNo) : (s.eraseBin b).lc = s.lc := rfl
@[simp] theorem State.eraseBin_su (b : BinNo) : (s.eraseBin b).su = s.su := rfl
@[simp] theorem State.eraseBin_fiu (b : BinNo) : (s.eraseBin b).fiu = s.fiu := rfl
@[simp] theorem State.eraseBin_au (b : BinNo) : (s.eraseBin b).au = s.au := rfl
@[simp] theorem State.eraseBin_win (b : BinNo) : (s.eraseBin b).win = s.win := rfl
@[simp] theorem State.eraseBin_phase (b : BinNo) : (s.eraseBin b).phase = s.phase := rfl
@[simp] theorem State.eraseBin_dataOut (b : BinNo) : (s.eraseBin b).dataOut = s.dataOut := rfl
@[simp] theorem State.eraseBin_pending (b : BinNo) : (s.eraseBin b).pending = s.pending := rfl

/-! ## changeBin -/

@[simp] theorem State.changeBin_formatMark (b : BinNo) (f : BinRec → BinRec) :
    (s.changeBin b f).formatMark = s.formatMark := rfl
@[simp] theorem State.changeBin_pendingUpdate (b : BinNo) (f : BinRec → BinRec) :
    (s.changeBin b f).pendingUpdate = s.pendingUpdate := rfl
@[simp] theorem State.changeBin_tab_segments (b : BinNo) (f : BinRec → BinRec) :
    (s.changeBin b f).tab.segments = s.tab.segments := rfl
@[simp] theorem State.changeBin_tab_bins (b : BinNo) (f : BinRec → BinRec) :
    (s.changeBin b f).tab.bins = tableUpdate b.val f s.tab.bins := rfl
@[simp] theorem State.changeBin_tab_items (b : BinNo) (f : BinRec → BinRec) :
    (s.changeBin b f).tab.items = s.tab.items := rfl
@[simp] theorem State.changeBin_tab_patrons (b : BinNo) (f : BinRec → BinRec) :
    (s.changeBin b f).tab.patrons = s.tab.patrons := rfl
@[simp] theorem State.changeBin_tab_categories (b : BinNo) (f : BinRec → BinRec) :
    (s.changeBin b f).tab.categories = s.tab.categories := rfl
@[simp] theorem State.changeBin_tab_day (b : BinNo) (f : BinRec → BinRec) : (s.changeBin b f).tab.day = s.tab.day := rfl
@[simp] theorem State.changeBin_tab_supervised (b : BinNo) (f : BinRec → BinRec) :
    (s.changeBin b f).tab.supervised = s.tab.supervised := rfl
@[simp] theorem State.changeBin_tab_deadlines (b : BinNo) (f : BinRec → BinRec) :
    (s.changeBin b f).tab.deadlines = s.tab.deadlines := rfl
@[simp] theorem State.changeBin_dropList (b : BinNo) (f : BinRec → BinRec) : (s.changeBin b f).dropList = s.dropList := rfl
@[simp] theorem State.changeBin_ou (b : BinNo) (f : BinRec → BinRec) : (s.changeBin b f).ou = s.ou := rfl
@[simp] theorem State.changeBin_alc (b : BinNo) (f : BinRec → BinRec) : (s.changeBin b f).alc = s.alc := rfl
@[simp] theorem State.changeBin_lc (b : BinNo) (f : BinRec → BinRec) : (s.changeBin b f).lc = s.lc := rfl
@[simp] theorem State.changeBin_su (b : BinNo) (f : BinRec → BinRec) : (s.changeBin b f).su = s.su := rfl
@[simp] theorem State.changeBin_fiu (b : BinNo) (f : BinRec → BinRec) : (s.changeBin b f).fiu = s.fiu := rfl
@[simp] theorem State.changeBin_au (b : BinNo) (f : BinRec → BinRec) : (s.changeBin b f).au = s.au := rfl
@[simp] theorem State.changeBin_win (b : BinNo) (f : BinRec → BinRec) : (s.changeBin b f).win = s.win := rfl
@[simp] theorem State.changeBin_phase (b : BinNo) (f : BinRec → BinRec) : (s.changeBin b f).phase = s.phase := rfl
@[simp] theorem State.changeBin_dataOut (b : BinNo) (f : BinRec → BinRec) : (s.changeBin b f).dataOut = s.dataOut := rfl
@[simp] theorem State.changeBin_pending (b : BinNo) (f : BinRec → BinRec) : (s.changeBin b f).pending = s.pending := rfl

/-! ## putItem -/

@[simp] theorem State.putItem_formatMark (t : Tag) (i : Item) : (s.putItem t i).formatMark = s.formatMark := rfl
@[simp] theorem State.putItem_pendingUpdate (t : Tag) (i : Item) : (s.putItem t i).pendingUpdate = s.pendingUpdate := rfl
@[simp] theorem State.putItem_tab_segments (t : Tag) (i : Item) : (s.putItem t i).tab.segments = s.tab.segments := rfl
@[simp] theorem State.putItem_tab_bins (t : Tag) (i : Item) : (s.putItem t i).tab.bins = s.tab.bins := rfl
@[simp] theorem State.putItem_tab_items (t : Tag) (i : Item) : (s.putItem t i).tab.items = tableInsert t i s.tab.items := rfl
@[simp] theorem State.putItem_tab_patrons (t : Tag) (i : Item) : (s.putItem t i).tab.patrons = s.tab.patrons := rfl
@[simp] theorem State.putItem_tab_categories (t : Tag) (i : Item) : (s.putItem t i).tab.categories = s.tab.categories := rfl
@[simp] theorem State.putItem_tab_day (t : Tag) (i : Item) : (s.putItem t i).tab.day = s.tab.day := rfl
@[simp] theorem State.putItem_tab_supervised (t : Tag) (i : Item) : (s.putItem t i).tab.supervised = s.tab.supervised := rfl
@[simp] theorem State.putItem_tab_deadlines (t : Tag) (i : Item) : (s.putItem t i).tab.deadlines = s.tab.deadlines := rfl
@[simp] theorem State.putItem_dropList (t : Tag) (i : Item) : (s.putItem t i).dropList = s.dropList := rfl
@[simp] theorem State.putItem_ou (t : Tag) (i : Item) : (s.putItem t i).ou = s.ou := rfl
@[simp] theorem State.putItem_alc (t : Tag) (i : Item) : (s.putItem t i).alc = s.alc := rfl
@[simp] theorem State.putItem_lc (t : Tag) (i : Item) : (s.putItem t i).lc = s.lc := rfl
@[simp] theorem State.putItem_su (t : Tag) (i : Item) : (s.putItem t i).su = s.su := rfl
@[simp] theorem State.putItem_fiu (t : Tag) (i : Item) : (s.putItem t i).fiu = s.fiu := rfl
@[simp] theorem State.putItem_au (t : Tag) (i : Item) : (s.putItem t i).au = s.au := rfl
@[simp] theorem State.putItem_win (t : Tag) (i : Item) : (s.putItem t i).win = s.win := rfl
@[simp] theorem State.putItem_phase (t : Tag) (i : Item) : (s.putItem t i).phase = s.phase := rfl
@[simp] theorem State.putItem_dataOut (t : Tag) (i : Item) : (s.putItem t i).dataOut = s.dataOut := rfl
@[simp] theorem State.putItem_pending (t : Tag) (i : Item) : (s.putItem t i).pending = s.pending := rfl

/-! ## eraseItem -/

@[simp] theorem State.eraseItem_formatMark (t : Tag) : (s.eraseItem t).formatMark = s.formatMark := rfl
@[simp] theorem State.eraseItem_pendingUpdate (t : Tag) : (s.eraseItem t).pendingUpdate = s.pendingUpdate := rfl
@[simp] theorem State.eraseItem_tab_segments (t : Tag) : (s.eraseItem t).tab.segments = s.tab.segments := rfl
@[simp] theorem State.eraseItem_tab_bins (t : Tag) : (s.eraseItem t).tab.bins = s.tab.bins := rfl
@[simp] theorem State.eraseItem_tab_items (t : Tag) : (s.eraseItem t).tab.items = tableErase t s.tab.items := rfl
@[simp] theorem State.eraseItem_tab_patrons (t : Tag) : (s.eraseItem t).tab.patrons = s.tab.patrons := rfl
@[simp] theorem State.eraseItem_tab_categories (t : Tag) : (s.eraseItem t).tab.categories = s.tab.categories := rfl
@[simp] theorem State.eraseItem_tab_day (t : Tag) : (s.eraseItem t).tab.day = s.tab.day := rfl
@[simp] theorem State.eraseItem_tab_supervised (t : Tag) : (s.eraseItem t).tab.supervised = s.tab.supervised := rfl
@[simp] theorem State.eraseItem_tab_deadlines (t : Tag) : (s.eraseItem t).tab.deadlines = s.tab.deadlines := rfl
@[simp] theorem State.eraseItem_dropList (t : Tag) : (s.eraseItem t).dropList = s.dropList := rfl
@[simp] theorem State.eraseItem_ou (t : Tag) : (s.eraseItem t).ou = s.ou := rfl
@[simp] theorem State.eraseItem_alc (t : Tag) : (s.eraseItem t).alc = s.alc := rfl
@[simp] theorem State.eraseItem_lc (t : Tag) : (s.eraseItem t).lc = s.lc := rfl
@[simp] theorem State.eraseItem_su (t : Tag) : (s.eraseItem t).su = s.su := rfl
@[simp] theorem State.eraseItem_fiu (t : Tag) : (s.eraseItem t).fiu = s.fiu := rfl
@[simp] theorem State.eraseItem_au (t : Tag) : (s.eraseItem t).au = s.au := rfl
@[simp] theorem State.eraseItem_win (t : Tag) : (s.eraseItem t).win = s.win := rfl
@[simp] theorem State.eraseItem_phase (t : Tag) : (s.eraseItem t).phase = s.phase := rfl
@[simp] theorem State.eraseItem_dataOut (t : Tag) : (s.eraseItem t).dataOut = s.dataOut := rfl
@[simp] theorem State.eraseItem_pending (t : Tag) : (s.eraseItem t).pending = s.pending := rfl

/-! ## putPatron -/

@[simp] theorem State.putPatron_formatMark (n : PatronNo) (p : Patron) : (s.putPatron n p).formatMark = s.formatMark := rfl
@[simp] theorem State.putPatron_pendingUpdate (n : PatronNo) (p : Patron) :
    (s.putPatron n p).pendingUpdate = s.pendingUpdate := rfl
@[simp] theorem State.putPatron_tab_segments (n : PatronNo) (p : Patron) :
    (s.putPatron n p).tab.segments = s.tab.segments := rfl
@[simp] theorem State.putPatron_tab_bins (n : PatronNo) (p : Patron) : (s.putPatron n p).tab.bins = s.tab.bins := rfl
@[simp] theorem State.putPatron_tab_items (n : PatronNo) (p : Patron) : (s.putPatron n p).tab.items = s.tab.items := rfl
@[simp] theorem State.putPatron_tab_patrons (n : PatronNo) (p : Patron) :
    (s.putPatron n p).tab.patrons = tableInsert n p s.tab.patrons := rfl
@[simp] theorem State.putPatron_tab_categories (n : PatronNo) (p : Patron) :
    (s.putPatron n p).tab.categories = s.tab.categories := rfl
@[simp] theorem State.putPatron_tab_day (n : PatronNo) (p : Patron) : (s.putPatron n p).tab.day = s.tab.day := rfl
@[simp] theorem State.putPatron_tab_supervised (n : PatronNo) (p : Patron) :
    (s.putPatron n p).tab.supervised = s.tab.supervised := rfl
@[simp] theorem State.putPatron_tab_deadlines (n : PatronNo) (p : Patron) :
    (s.putPatron n p).tab.deadlines = s.tab.deadlines := rfl
@[simp] theorem State.putPatron_dropList (n : PatronNo) (p : Patron) : (s.putPatron n p).dropList = s.dropList := rfl
@[simp] theorem State.putPatron_ou (n : PatronNo) (p : Patron) : (s.putPatron n p).ou = s.ou := rfl
@[simp] theorem State.putPatron_alc (n : PatronNo) (p : Patron) : (s.putPatron n p).alc = s.alc := rfl
@[simp] theorem State.putPatron_lc (n : PatronNo) (p : Patron) : (s.putPatron n p).lc = s.lc := rfl
@[simp] theorem State.putPatron_su (n : PatronNo) (p : Patron) : (s.putPatron n p).su = s.su := rfl
@[simp] theorem State.putPatron_fiu (n : PatronNo) (p : Patron) : (s.putPatron n p).fiu = s.fiu := rfl
@[simp] theorem State.putPatron_au (n : PatronNo) (p : Patron) : (s.putPatron n p).au = s.au := rfl
@[simp] theorem State.putPatron_win (n : PatronNo) (p : Patron) : (s.putPatron n p).win = s.win := rfl
@[simp] theorem State.putPatron_phase (n : PatronNo) (p : Patron) : (s.putPatron n p).phase = s.phase := rfl
@[simp] theorem State.putPatron_dataOut (n : PatronNo) (p : Patron) : (s.putPatron n p).dataOut = s.dataOut := rfl
@[simp] theorem State.putPatron_pending (n : PatronNo) (p : Patron) : (s.putPatron n p).pending = s.pending := rfl

/-! ## erasePatron -/

@[simp] theorem State.erasePatron_formatMark (n : PatronNo) : (s.erasePatron n).formatMark = s.formatMark := rfl
@[simp] theorem State.erasePatron_pendingUpdate (n : PatronNo) : (s.erasePatron n).pendingUpdate = s.pendingUpdate := rfl
@[simp] theorem State.erasePatron_tab_segments (n : PatronNo) : (s.erasePatron n).tab.segments = s.tab.segments := rfl
@[simp] theorem State.erasePatron_tab_bins (n : PatronNo) : (s.erasePatron n).tab.bins = s.tab.bins := rfl
@[simp] theorem State.erasePatron_tab_items (n : PatronNo) : (s.erasePatron n).tab.items = s.tab.items := rfl
@[simp] theorem State.erasePatron_tab_patrons (n : PatronNo) :
    (s.erasePatron n).tab.patrons = tableErase n s.tab.patrons := rfl
@[simp] theorem State.erasePatron_tab_categories (n : PatronNo) : (s.erasePatron n).tab.categories = s.tab.categories := rfl
@[simp] theorem State.erasePatron_tab_day (n : PatronNo) : (s.erasePatron n).tab.day = s.tab.day := rfl
@[simp] theorem State.erasePatron_tab_supervised (n : PatronNo) : (s.erasePatron n).tab.supervised = s.tab.supervised := rfl
@[simp] theorem State.erasePatron_tab_deadlines (n : PatronNo) : (s.erasePatron n).tab.deadlines = s.tab.deadlines := rfl
@[simp] theorem State.erasePatron_dropList (n : PatronNo) : (s.erasePatron n).dropList = s.dropList := rfl
@[simp] theorem State.erasePatron_ou (n : PatronNo) : (s.erasePatron n).ou = s.ou := rfl
@[simp] theorem State.erasePatron_alc (n : PatronNo) : (s.erasePatron n).alc = s.alc := rfl
@[simp] theorem State.erasePatron_lc (n : PatronNo) : (s.erasePatron n).lc = s.lc := rfl
@[simp] theorem State.erasePatron_su (n : PatronNo) : (s.erasePatron n).su = s.su := rfl
@[simp] theorem State.erasePatron_fiu (n : PatronNo) : (s.erasePatron n).fiu = s.fiu := rfl
@[simp] theorem State.erasePatron_au (n : PatronNo) : (s.erasePatron n).au = s.au := rfl
@[simp] theorem State.erasePatron_win (n : PatronNo) : (s.erasePatron n).win = s.win := rfl
@[simp] theorem State.erasePatron_phase (n : PatronNo) : (s.erasePatron n).phase = s.phase := rfl
@[simp] theorem State.erasePatron_dataOut (n : PatronNo) : (s.erasePatron n).dataOut = s.dataOut := rfl
@[simp] theorem State.erasePatron_pending (n : PatronNo) : (s.erasePatron n).pending = s.pending := rfl

/-! ## changePatron -/

@[simp] theorem State.changePatron_formatMark (n : PatronNo) (f : Patron → Patron) :
    (s.changePatron n f).formatMark = s.formatMark := rfl
@[simp] theorem State.changePatron_pendingUpdate (n : PatronNo) (f : Patron → Patron) :
    (s.changePatron n f).pendingUpdate = s.pendingUpdate := rfl
@[simp] theorem State.changePatron_tab_segments (n : PatronNo) (f : Patron → Patron) :
    (s.changePatron n f).tab.segments = s.tab.segments := rfl
@[simp] theorem State.changePatron_tab_bins (n : PatronNo) (f : Patron → Patron) :
    (s.changePatron n f).tab.bins = s.tab.bins := rfl
@[simp] theorem State.changePatron_tab_items (n : PatronNo) (f : Patron → Patron) :
    (s.changePatron n f).tab.items = s.tab.items := rfl
@[simp] theorem State.changePatron_tab_patrons (n : PatronNo) (f : Patron → Patron) :
    (s.changePatron n f).tab.patrons = tableUpdate n f s.tab.patrons := rfl
@[simp] theorem State.changePatron_tab_categories (n : PatronNo) (f : Patron → Patron) :
    (s.changePatron n f).tab.categories = s.tab.categories := rfl
@[simp] theorem State.changePatron_tab_day (n : PatronNo) (f : Patron → Patron) :
    (s.changePatron n f).tab.day = s.tab.day := rfl
@[simp] theorem State.changePatron_tab_supervised (n : PatronNo) (f : Patron → Patron) :
    (s.changePatron n f).tab.supervised = s.tab.supervised := rfl
@[simp] theorem State.changePatron_tab_deadlines (n : PatronNo) (f : Patron → Patron) :
    (s.changePatron n f).tab.deadlines = s.tab.deadlines := rfl
@[simp] theorem State.changePatron_dropList (n : PatronNo) (f : Patron → Patron) :
    (s.changePatron n f).dropList = s.dropList := rfl
@[simp] theorem State.changePatron_ou (n : PatronNo) (f : Patron → Patron) : (s.changePatron n f).ou = s.ou := rfl
@[simp] theorem State.changePatron_alc (n : PatronNo) (f : Patron → Patron) : (s.changePatron n f).alc = s.alc := rfl
@[simp] theorem State.changePatron_lc (n : PatronNo) (f : Patron → Patron) : (s.changePatron n f).lc = s.lc := rfl
@[simp] theorem State.changePatron_su (n : PatronNo) (f : Patron → Patron) : (s.changePatron n f).su = s.su := rfl
@[simp] theorem State.changePatron_fiu (n : PatronNo) (f : Patron → Patron) : (s.changePatron n f).fiu = s.fiu := rfl
@[simp] theorem State.changePatron_au (n : PatronNo) (f : Patron → Patron) : (s.changePatron n f).au = s.au := rfl
@[simp] theorem State.changePatron_win (n : PatronNo) (f : Patron → Patron) : (s.changePatron n f).win = s.win := rfl
@[simp] theorem State.changePatron_phase (n : PatronNo) (f : Patron → Patron) : (s.changePatron n f).phase = s.phase := rfl
@[simp] theorem State.changePatron_dataOut (n : PatronNo) (f : Patron → Patron) :
    (s.changePatron n f).dataOut = s.dataOut := rfl
@[simp] theorem State.changePatron_pending (n : PatronNo) (f : Patron → Patron) :
    (s.changePatron n f).pending = s.pending := rfl

/-! ## putOrder -/

@[simp] theorem State.putOrder_formatMark (o : OrderNo) (r : Order) : (s.putOrder o r).formatMark = s.formatMark := rfl
@[simp] theorem State.putOrder_pendingUpdate (o : OrderNo) (r : Order) :
    (s.putOrder o r).pendingUpdate = s.pendingUpdate := rfl
@[simp] theorem State.putOrder_tab (o : OrderNo) (r : Order) : (s.putOrder o r).tab = s.tab := rfl
@[simp] theorem State.putOrder_dropList (o : OrderNo) (r : Order) : (s.putOrder o r).dropList = s.dropList := rfl
@[simp] theorem State.putOrder_ou_orders (o : OrderNo) (r : Order) :
    (s.putOrder o r).ou.orders = s.ou.orders.set o (some r) := rfl
@[simp] theorem State.putOrder_ou_queues (o : OrderNo) (r : Order) : (s.putOrder o r).ou.queues = s.ou.queues := rfl
@[simp] theorem State.putOrder_ou_claims (o : OrderNo) (r : Order) : (s.putOrder o r).ou.claims = s.ou.claims := rfl
@[simp] theorem State.putOrder_ou_cursor (o : OrderNo) (r : Order) : (s.putOrder o r).ou.cursor = s.ou.cursor := rfl
@[simp] theorem State.putOrder_ou_sweep (o : OrderNo) (r : Order) : (s.putOrder o r).ou.sweep = s.ou.sweep := rfl
@[simp] theorem State.putOrder_ou_auditCount (o : OrderNo) (r : Order) :
    (s.putOrder o r).ou.auditCount = s.ou.auditCount := rfl
@[simp] theorem State.putOrder_ou_quiet (o : OrderNo) (r : Order) : (s.putOrder o r).ou.quiet = s.ou.quiet := rfl
@[simp] theorem State.putOrder_alc (o : OrderNo) (r : Order) : (s.putOrder o r).alc = s.alc := rfl
@[simp] theorem State.putOrder_lc (o : OrderNo) (r : Order) : (s.putOrder o r).lc = s.lc := rfl
@[simp] theorem State.putOrder_su (o : OrderNo) (r : Order) : (s.putOrder o r).su = s.su := rfl
@[simp] theorem State.putOrder_fiu (o : OrderNo) (r : Order) : (s.putOrder o r).fiu = s.fiu := rfl
@[simp] theorem State.putOrder_au (o : OrderNo) (r : Order) : (s.putOrder o r).au = s.au := rfl
@[simp] theorem State.putOrder_win (o : OrderNo) (r : Order) : (s.putOrder o r).win = s.win := rfl
@[simp] theorem State.putOrder_phase (o : OrderNo) (r : Order) : (s.putOrder o r).phase = s.phase := rfl
@[simp] theorem State.putOrder_dataOut (o : OrderNo) (r : Order) : (s.putOrder o r).dataOut = s.dataOut := rfl
@[simp] theorem State.putOrder_pending (o : OrderNo) (r : Order) : (s.putOrder o r).pending = s.pending := rfl

/-! ## freeOrder -/

@[simp] theorem State.freeOrder_formatMark (o : OrderNo) : (s.freeOrder o).formatMark = s.formatMark := rfl
@[simp] theorem State.freeOrder_pendingUpdate (o : OrderNo) : (s.freeOrder o).pendingUpdate = s.pendingUpdate := rfl
@[simp] theorem State.freeOrder_tab (o : OrderNo) : (s.freeOrder o).tab = s.tab := rfl
@[simp] theorem State.freeOrder_dropList (o : OrderNo) : (s.freeOrder o).dropList = s.dropList := rfl
@[simp] theorem State.freeOrder_ou_orders (o : OrderNo) : (s.freeOrder o).ou.orders = s.ou.orders.set o none := rfl
@[simp] theorem State.freeOrder_ou_queues (o : OrderNo) : (s.freeOrder o).ou.queues = s.ou.queues := rfl
@[simp] theorem State.freeOrder_ou_claims (o : OrderNo) : (s.freeOrder o).ou.claims = s.ou.claims := rfl
@[simp] theorem State.freeOrder_ou_cursor (o : OrderNo) : (s.freeOrder o).ou.cursor = s.ou.cursor := rfl
@[simp] theorem State.freeOrder_ou_sweep (o : OrderNo) : (s.freeOrder o).ou.sweep = s.ou.sweep := rfl
@[simp] theorem State.freeOrder_ou_auditCount (o : OrderNo) : (s.freeOrder o).ou.auditCount = s.ou.auditCount := rfl
@[simp] theorem State.freeOrder_ou_quiet (o : OrderNo) : (s.freeOrder o).ou.quiet = s.ou.quiet := rfl
@[simp] theorem State.freeOrder_alc (o : OrderNo) : (s.freeOrder o).alc = s.alc := rfl
@[simp] theorem State.freeOrder_lc (o : OrderNo) : (s.freeOrder o).lc = s.lc := rfl
@[simp] theorem State.freeOrder_su (o : OrderNo) : (s.freeOrder o).su = s.su := rfl
@[simp] theorem State.freeOrder_fiu (o : OrderNo) : (s.freeOrder o).fiu = s.fiu := rfl
@[simp] theorem State.freeOrder_au (o : OrderNo) : (s.freeOrder o).au = s.au := rfl
@[simp] theorem State.freeOrder_win (o : OrderNo) : (s.freeOrder o).win = s.win := rfl
@[simp] theorem State.freeOrder_phase (o : OrderNo) : (s.freeOrder o).phase = s.phase := rfl
@[simp] theorem State.freeOrder_dataOut (o : OrderNo) : (s.freeOrder o).dataOut = s.dataOut := rfl
@[simp] theorem State.freeOrder_pending (o : OrderNo) : (s.freeOrder o).pending = s.pending := rfl

/-! ## setQueue -/

@[simp] theorem State.setQueue_formatMark (a : Aisle) (q : List OrderNo) : (s.setQueue a q).formatMark = s.formatMark := rfl
@[simp] theorem State.setQueue_pendingUpdate (a : Aisle) (q : List OrderNo) :
    (s.setQueue a q).pendingUpdate = s.pendingUpdate := rfl
@[simp] theorem State.setQueue_tab (a : Aisle) (q : List OrderNo) : (s.setQueue a q).tab = s.tab := rfl
@[simp] theorem State.setQueue_dropList (a : Aisle) (q : List OrderNo) : (s.setQueue a q).dropList = s.dropList := rfl
@[simp] theorem State.setQueue_ou_orders (a : Aisle) (q : List OrderNo) : (s.setQueue a q).ou.orders = s.ou.orders := rfl
@[simp] theorem State.setQueue_ou_queues (a : Aisle) (q : List OrderNo) :
    (s.setQueue a q).ou.queues = s.ou.queues.set a q := rfl
@[simp] theorem State.setQueue_ou_claims (a : Aisle) (q : List OrderNo) : (s.setQueue a q).ou.claims = s.ou.claims := rfl
@[simp] theorem State.setQueue_ou_cursor (a : Aisle) (q : List OrderNo) : (s.setQueue a q).ou.cursor = s.ou.cursor := rfl
@[simp] theorem State.setQueue_ou_sweep (a : Aisle) (q : List OrderNo) : (s.setQueue a q).ou.sweep = s.ou.sweep := rfl
@[simp] theorem State.setQueue_ou_auditCount (a : Aisle) (q : List OrderNo) :
    (s.setQueue a q).ou.auditCount = s.ou.auditCount := rfl
@[simp] theorem State.setQueue_ou_quiet (a : Aisle) (q : List OrderNo) : (s.setQueue a q).ou.quiet = s.ou.quiet := rfl
@[simp] theorem State.setQueue_alc (a : Aisle) (q : List OrderNo) : (s.setQueue a q).alc = s.alc := rfl
@[simp] theorem State.setQueue_lc (a : Aisle) (q : List OrderNo) : (s.setQueue a q).lc = s.lc := rfl
@[simp] theorem State.setQueue_su (a : Aisle) (q : List OrderNo) : (s.setQueue a q).su = s.su := rfl
@[simp] theorem State.setQueue_fiu (a : Aisle) (q : List OrderNo) : (s.setQueue a q).fiu = s.fiu := rfl
@[simp] theorem State.setQueue_au (a : Aisle) (q : List OrderNo) : (s.setQueue a q).au = s.au := rfl
@[simp] theorem State.setQueue_win (a : Aisle) (q : List OrderNo) : (s.setQueue a q).win = s.win := rfl
@[simp] theorem State.setQueue_phase (a : Aisle) (q : List OrderNo) : (s.setQueue a q).phase = s.phase := rfl
@[simp] theorem State.setQueue_dataOut (a : Aisle) (q : List OrderNo) : (s.setQueue a q).dataOut = s.dataOut := rfl
@[simp] theorem State.setQueue_pending (a : Aisle) (q : List OrderNo) : (s.setQueue a q).pending = s.pending := rfl

/-! ## withdrawClaims -/

@[simp] theorem State.withdrawClaims_formatMark (ks : List Nat) : (s.withdrawClaims ks).formatMark = s.formatMark := rfl
@[simp] theorem State.withdrawClaims_pendingUpdate (ks : List Nat) :
    (s.withdrawClaims ks).pendingUpdate = s.pendingUpdate := rfl
@[simp] theorem State.withdrawClaims_tab (ks : List Nat) : (s.withdrawClaims ks).tab = s.tab := rfl
@[simp] theorem State.withdrawClaims_dropList (ks : List Nat) : (s.withdrawClaims ks).dropList = s.dropList := rfl
@[simp] theorem State.withdrawClaims_ou_orders (ks : List Nat) : (s.withdrawClaims ks).ou.orders = s.ou.orders := rfl
@[simp] theorem State.withdrawClaims_ou_queues (ks : List Nat) : (s.withdrawClaims ks).ou.queues = s.ou.queues := rfl
@[simp] theorem State.withdrawClaims_ou_claims (ks : List Nat) :
    (s.withdrawClaims ks).ou.claims = s.ou.claims.filter fun c => !ks.contains c.rank := rfl
@[simp] theorem State.withdrawClaims_ou_cursor (ks : List Nat) : (s.withdrawClaims ks).ou.cursor = s.ou.cursor := rfl
@[simp] theorem State.withdrawClaims_ou_sweep (ks : List Nat) : (s.withdrawClaims ks).ou.sweep = s.ou.sweep := rfl
@[simp] theorem State.withdrawClaims_ou_auditCount (ks : List Nat) :
    (s.withdrawClaims ks).ou.auditCount = s.ou.auditCount := rfl
@[simp] theorem State.withdrawClaims_ou_quiet (ks : List Nat) : (s.withdrawClaims ks).ou.quiet = s.ou.quiet := rfl
@[simp] theorem State.withdrawClaims_alc (ks : List Nat) : (s.withdrawClaims ks).alc = s.alc := rfl
@[simp] theorem State.withdrawClaims_lc (ks : List Nat) : (s.withdrawClaims ks).lc = s.lc := rfl
@[simp] theorem State.withdrawClaims_su (ks : List Nat) : (s.withdrawClaims ks).su = s.su := rfl
@[simp] theorem State.withdrawClaims_fiu (ks : List Nat) : (s.withdrawClaims ks).fiu = s.fiu := rfl
@[simp] theorem State.withdrawClaims_au (ks : List Nat) : (s.withdrawClaims ks).au = s.au := rfl
@[simp] theorem State.withdrawClaims_win (ks : List Nat) : (s.withdrawClaims ks).win = s.win := rfl
@[simp] theorem State.withdrawClaims_phase (ks : List Nat) : (s.withdrawClaims ks).phase = s.phase := rfl
@[simp] theorem State.withdrawClaims_dataOut (ks : List Nat) : (s.withdrawClaims ks).dataOut = s.dataOut := rfl
@[simp] theorem State.withdrawClaims_pending (ks : List Nat) : (s.withdrawClaims ks).pending = s.pending := rfl

/-! ## fileClaim -/

@[simp] theorem State.fileClaim_formatMark (c : Claim) : (s.fileClaim c).formatMark = s.formatMark := rfl
@[simp] theorem State.fileClaim_pendingUpdate (c : Claim) : (s.fileClaim c).pendingUpdate = s.pendingUpdate := rfl
@[simp] theorem State.fileClaim_tab (c : Claim) : (s.fileClaim c).tab = s.tab := rfl
@[simp] theorem State.fileClaim_dropList (c : Claim) : (s.fileClaim c).dropList = s.dropList := rfl
@[simp] theorem State.fileClaim_ou_orders (c : Claim) : (s.fileClaim c).ou.orders = s.ou.orders := rfl
@[simp] theorem State.fileClaim_ou_queues (c : Claim) : (s.fileClaim c).ou.queues = s.ou.queues := rfl
@[simp] theorem State.fileClaim_ou_claims (c : Claim) :
    (s.fileClaim c).ou.claims = s.ou.claims.filter (fun c' => c'.rank != c.rank) ++ [c] := rfl
@[simp] theorem State.fileClaim_ou_cursor (c : Claim) : (s.fileClaim c).ou.cursor = s.ou.cursor := rfl
@[simp] theorem State.fileClaim_ou_sweep (c : Claim) : (s.fileClaim c).ou.sweep = s.ou.sweep := rfl
@[simp] theorem State.fileClaim_ou_auditCount (c : Claim) : (s.fileClaim c).ou.auditCount = s.ou.auditCount := rfl
@[simp] theorem State.fileClaim_ou_quiet (c : Claim) : (s.fileClaim c).ou.quiet = s.ou.quiet := rfl
@[simp] theorem State.fileClaim_alc (c : Claim) : (s.fileClaim c).alc = s.alc := rfl
@[simp] theorem State.fileClaim_lc (c : Claim) : (s.fileClaim c).lc = s.lc := rfl
@[simp] theorem State.fileClaim_su (c : Claim) : (s.fileClaim c).su = s.su := rfl
@[simp] theorem State.fileClaim_fiu (c : Claim) : (s.fileClaim c).fiu = s.fiu := rfl
@[simp] theorem State.fileClaim_au (c : Claim) : (s.fileClaim c).au = s.au := rfl
@[simp] theorem State.fileClaim_win (c : Claim) : (s.fileClaim c).win = s.win := rfl
@[simp] theorem State.fileClaim_phase (c : Claim) : (s.fileClaim c).phase = s.phase := rfl
@[simp] theorem State.fileClaim_dataOut (c : Claim) : (s.fileClaim c).dataOut = s.dataOut := rfl
@[simp] theorem State.fileClaim_pending (c : Claim) : (s.fileClaim c).pending = s.pending := rfl

/-! ## setZoneState -/

@[simp] theorem State.setZoneState_formatMark (z : ZoneNo) (st : ZoneState) :
    (s.setZoneState z st).formatMark = s.formatMark := rfl
@[simp] theorem State.setZoneState_pendingUpdate (z : ZoneNo) (st : ZoneState) :
    (s.setZoneState z st).pendingUpdate = s.pendingUpdate := rfl
@[simp] theorem State.setZoneState_tab (z : ZoneNo) (st : ZoneState) : (s.setZoneState z st).tab = s.tab := rfl
@[simp] theorem State.setZoneState_dropList (z : ZoneNo) (st : ZoneState) :
    (s.setZoneState z st).dropList = s.dropList := rfl
@[simp] theorem State.setZoneState_ou (z : ZoneNo) (st : ZoneState) : (s.setZoneState z st).ou = s.ou := rfl
@[simp] theorem State.setZoneState_alc (z : ZoneNo) (st : ZoneState) : (s.setZoneState z st).alc = s.alc := rfl
@[simp] theorem State.setZoneState_lc (z : ZoneNo) (st : ZoneState) : (s.setZoneState z st).lc = s.lc := rfl
@[simp] theorem State.setZoneState_su (z : ZoneNo) (st : ZoneState) : (s.setZoneState z st).su = s.su := rfl
@[simp] theorem State.setZoneState_fiu_zones (z : ZoneNo) (st : ZoneState) :
    (s.setZoneState z st).fiu.zones = s.fiu.zones.set z { s.zone z with state := st, clr := decide (st = .sealed) } := rfl
@[simp] theorem State.setZoneState_fiu_alm (z : ZoneNo) (st : ZoneState) : (s.setZoneState z st).fiu.alm = s.fiu.alm := rfl
@[simp] theorem State.setZoneState_au (z : ZoneNo) (st : ZoneState) : (s.setZoneState z st).au = s.au := rfl
@[simp] theorem State.setZoneState_win (z : ZoneNo) (st : ZoneState) : (s.setZoneState z st).win = s.win := rfl
@[simp] theorem State.setZoneState_phase (z : ZoneNo) (st : ZoneState) : (s.setZoneState z st).phase = s.phase := rfl
@[simp] theorem State.setZoneState_dataOut (z : ZoneNo) (st : ZoneState) : (s.setZoneState z st).dataOut = s.dataOut := rfl
@[simp] theorem State.setZoneState_pending (z : ZoneNo) (st : ZoneState) : (s.setZoneState z st).pending = s.pending := rfl

/-! ## setLine -/

@[simp] theorem State.setLine_formatMark (z : ZoneNo) (active : Bool) : (s.setLine z active).formatMark = s.formatMark := rfl
@[simp] theorem State.setLine_pendingUpdate (z : ZoneNo) (active : Bool) :
    (s.setLine z active).pendingUpdate = s.pendingUpdate := rfl
@[simp] theorem State.setLine_tab (z : ZoneNo) (active : Bool) : (s.setLine z active).tab = s.tab := rfl
@[simp] theorem State.setLine_dropList (z : ZoneNo) (active : Bool) : (s.setLine z active).dropList = s.dropList := rfl
@[simp] theorem State.setLine_ou (z : ZoneNo) (active : Bool) : (s.setLine z active).ou = s.ou := rfl
@[simp] theorem State.setLine_alc (z : ZoneNo) (active : Bool) : (s.setLine z active).alc = s.alc := rfl
@[simp] theorem State.setLine_lc (z : ZoneNo) (active : Bool) : (s.setLine z active).lc = s.lc := rfl
@[simp] theorem State.setLine_su (z : ZoneNo) (active : Bool) : (s.setLine z active).su = s.su := rfl
@[simp] theorem State.setLine_fiu_zones (z : ZoneNo) (active : Bool) :
    (s.setLine z active).fiu.zones = s.fiu.zones.set z { s.zone z with line := active } := rfl
@[simp] theorem State.setLine_fiu_alm (z : ZoneNo) (active : Bool) : (s.setLine z active).fiu.alm = s.fiu.alm := rfl
@[simp] theorem State.setLine_au (z : ZoneNo) (active : Bool) : (s.setLine z active).au = s.au := rfl
@[simp] theorem State.setLine_win (z : ZoneNo) (active : Bool) : (s.setLine z active).win = s.win := rfl
@[simp] theorem State.setLine_phase (z : ZoneNo) (active : Bool) : (s.setLine z active).phase = s.phase := rfl
@[simp] theorem State.setLine_dataOut (z : ZoneNo) (active : Bool) : (s.setLine z active).dataOut = s.dataOut := rfl
@[simp] theorem State.setLine_pending (z : ZoneNo) (active : Bool) : (s.setLine z active).pending = s.pending := rfl

/-! ## putShuttle -/

@[simp] theorem State.putShuttle_formatMark (a : Aisle) (r : Shuttle) : (s.putShuttle a r).formatMark = s.formatMark := rfl
@[simp] theorem State.putShuttle_pendingUpdate (a : Aisle) (r : Shuttle) :
    (s.putShuttle a r).pendingUpdate = s.pendingUpdate := rfl
@[simp] theorem State.putShuttle_tab (a : Aisle) (r : Shuttle) : (s.putShuttle a r).tab = s.tab := rfl
@[simp] theorem State.putShuttle_dropList (a : Aisle) (r : Shuttle) : (s.putShuttle a r).dropList = s.dropList := rfl
@[simp] theorem State.putShuttle_ou (a : Aisle) (r : Shuttle) : (s.putShuttle a r).ou = s.ou := rfl
@[simp] theorem State.putShuttle_alc_shuttles (a : Aisle) (r : Shuttle) :
    (s.putShuttle a r).alc.shuttles = s.alc.shuttles.set a r := rfl
@[simp] theorem State.putShuttle_alc_slots (a : Aisle) (r : Shuttle) : (s.putShuttle a r).alc.slots = s.alc.slots := rfl
@[simp] theorem State.putShuttle_alc_last2 (a : Aisle) (r : Shuttle) : (s.putShuttle a r).alc.last2 = s.alc.last2 := rfl
@[simp] theorem State.putShuttle_alc_last3 (a : Aisle) (r : Shuttle) : (s.putShuttle a r).alc.last3 = s.alc.last3 := rfl
@[simp] theorem State.putShuttle_alc_last4 (a : Aisle) (r : Shuttle) : (s.putShuttle a r).alc.last4 = s.alc.last4 := rfl
@[simp] theorem State.putShuttle_alc_line (a : Aisle) (r : Shuttle) : (s.putShuttle a r).alc.line = s.alc.line := rfl
@[simp] theorem State.putShuttle_alc_exchange (a : Aisle) (r : Shuttle) :
    (s.putShuttle a r).alc.exchange = s.alc.exchange := rfl
@[simp] theorem State.putShuttle_lc (a : Aisle) (r : Shuttle) : (s.putShuttle a r).lc = s.lc := rfl
@[simp] theorem State.putShuttle_su (a : Aisle) (r : Shuttle) : (s.putShuttle a r).su = s.su := rfl
@[simp] theorem State.putShuttle_fiu (a : Aisle) (r : Shuttle) : (s.putShuttle a r).fiu = s.fiu := rfl
@[simp] theorem State.putShuttle_au (a : Aisle) (r : Shuttle) : (s.putShuttle a r).au = s.au := rfl
@[simp] theorem State.putShuttle_win (a : Aisle) (r : Shuttle) : (s.putShuttle a r).win = s.win := rfl
@[simp] theorem State.putShuttle_phase (a : Aisle) (r : Shuttle) : (s.putShuttle a r).phase = s.phase := rfl
@[simp] theorem State.putShuttle_dataOut (a : Aisle) (r : Shuttle) : (s.putShuttle a r).dataOut = s.dataOut := rfl
@[simp] theorem State.putShuttle_pending (a : Aisle) (r : Shuttle) : (s.putShuttle a r).pending = s.pending := rfl

/-! ## changeShuttle -/

@[simp] theorem State.changeShuttle_formatMark (a : Aisle) (f : Shuttle → Shuttle) :
    (s.changeShuttle a f).formatMark = s.formatMark := rfl
@[simp] theorem State.changeShuttle_pendingUpdate (a : Aisle) (f : Shuttle → Shuttle) :
    (s.changeShuttle a f).pendingUpdate = s.pendingUpdate := rfl
@[simp] theorem State.changeShuttle_tab (a : Aisle) (f : Shuttle → Shuttle) : (s.changeShuttle a f).tab = s.tab := rfl
@[simp] theorem State.changeShuttle_dropList (a : Aisle) (f : Shuttle → Shuttle) :
    (s.changeShuttle a f).dropList = s.dropList := rfl
@[simp] theorem State.changeShuttle_ou (a : Aisle) (f : Shuttle → Shuttle) : (s.changeShuttle a f).ou = s.ou := rfl
@[simp] theorem State.changeShuttle_alc_shuttles (a : Aisle) (f : Shuttle → Shuttle) :
    (s.changeShuttle a f).alc.shuttles = s.alc.shuttles.set a (f (s.shuttle a)) := rfl
@[simp] theorem State.changeShuttle_alc_slots (a : Aisle) (f : Shuttle → Shuttle) :
    (s.changeShuttle a f).alc.slots = s.alc.slots := rfl
@[simp] theorem State.changeShuttle_alc_last2 (a : Aisle) (f : Shuttle → Shuttle) :
    (s.changeShuttle a f).alc.last2 = s.alc.last2 := rfl
@[simp] theorem State.changeShuttle_alc_last3 (a : Aisle) (f : Shuttle → Shuttle) :
    (s.changeShuttle a f).alc.last3 = s.alc.last3 := rfl
@[simp] theorem State.changeShuttle_alc_last4 (a : Aisle) (f : Shuttle → Shuttle) :
    (s.changeShuttle a f).alc.last4 = s.alc.last4 := rfl
@[simp] theorem State.changeShuttle_alc_line (a : Aisle) (f : Shuttle → Shuttle) :
    (s.changeShuttle a f).alc.line = s.alc.line := rfl
@[simp] theorem State.changeShuttle_alc_exchange (a : Aisle) (f : Shuttle → Shuttle) :
    (s.changeShuttle a f).alc.exchange = s.alc.exchange := rfl
@[simp] theorem State.changeShuttle_lc (a : Aisle) (f : Shuttle → Shuttle) : (s.changeShuttle a f).lc = s.lc := rfl
@[simp] theorem State.changeShuttle_su (a : Aisle) (f : Shuttle → Shuttle) : (s.changeShuttle a f).su = s.su := rfl
@[simp] theorem State.changeShuttle_fiu (a : Aisle) (f : Shuttle → Shuttle) : (s.changeShuttle a f).fiu = s.fiu := rfl
@[simp] theorem State.changeShuttle_au (a : Aisle) (f : Shuttle → Shuttle) : (s.changeShuttle a f).au = s.au := rfl
@[simp] theorem State.changeShuttle_win (a : Aisle) (f : Shuttle → Shuttle) : (s.changeShuttle a f).win = s.win := rfl
@[simp] theorem State.changeShuttle_phase (a : Aisle) (f : Shuttle → Shuttle) : (s.changeShuttle a f).phase = s.phase := rfl
@[simp] theorem State.changeShuttle_dataOut (a : Aisle) (f : Shuttle → Shuttle) :
    (s.changeShuttle a f).dataOut = s.dataOut := rfl
@[simp] theorem State.changeShuttle_pending (a : Aisle) (f : Shuttle → Shuttle) :
    (s.changeShuttle a f).pending = s.pending := rfl

/-! ## setSlot -/

@[simp] theorem State.setSlot_formatMark (a : Aisle) (m : Option Message) : (s.setSlot a m).formatMark = s.formatMark := rfl
@[simp] theorem State.setSlot_pendingUpdate (a : Aisle) (m : Option Message) :
    (s.setSlot a m).pendingUpdate = s.pendingUpdate := rfl
@[simp] theorem State.setSlot_tab (a : Aisle) (m : Option Message) : (s.setSlot a m).tab = s.tab := rfl
@[simp] theorem State.setSlot_dropList (a : Aisle) (m : Option Message) : (s.setSlot a m).dropList = s.dropList := rfl
@[simp] theorem State.setSlot_ou (a : Aisle) (m : Option Message) : (s.setSlot a m).ou = s.ou := rfl
@[simp] theorem State.setSlot_alc_shuttles (a : Aisle) (m : Option Message) :
    (s.setSlot a m).alc.shuttles = s.alc.shuttles := rfl
@[simp] theorem State.setSlot_alc_slots (a : Aisle) (m : Option Message) :
    (s.setSlot a m).alc.slots = s.alc.slots.set a m := rfl
@[simp] theorem State.setSlot_alc_last2 (a : Aisle) (m : Option Message) : (s.setSlot a m).alc.last2 = s.alc.last2 := rfl
@[simp] theorem State.setSlot_alc_last3 (a : Aisle) (m : Option Message) : (s.setSlot a m).alc.last3 = s.alc.last3 := rfl
@[simp] theorem State.setSlot_alc_last4 (a : Aisle) (m : Option Message) : (s.setSlot a m).alc.last4 = s.alc.last4 := rfl
@[simp] theorem State.setSlot_alc_line (a : Aisle) (m : Option Message) : (s.setSlot a m).alc.line = s.alc.line := rfl
@[simp] theorem State.setSlot_alc_exchange (a : Aisle) (m : Option Message) :
    (s.setSlot a m).alc.exchange = s.alc.exchange := rfl
@[simp] theorem State.setSlot_lc (a : Aisle) (m : Option Message) : (s.setSlot a m).lc = s.lc := rfl
@[simp] theorem State.setSlot_su (a : Aisle) (m : Option Message) : (s.setSlot a m).su = s.su := rfl
@[simp] theorem State.setSlot_fiu (a : Aisle) (m : Option Message) : (s.setSlot a m).fiu = s.fiu := rfl
@[simp] theorem State.setSlot_au (a : Aisle) (m : Option Message) : (s.setSlot a m).au = s.au := rfl
@[simp] theorem State.setSlot_win (a : Aisle) (m : Option Message) : (s.setSlot a m).win = s.win := rfl
@[simp] theorem State.setSlot_phase (a : Aisle) (m : Option Message) : (s.setSlot a m).phase = s.phase := rfl
@[simp] theorem State.setSlot_dataOut (a : Aisle) (m : Option Message) : (s.setSlot a m).dataOut = s.dataOut := rfl
@[simp] theorem State.setSlot_pending (a : Aisle) (m : Option Message) : (s.setSlot a m).pending = s.pending := rfl

/-! ## limitExchange -/

@[simp] theorem State.limitExchange_formatMark (a : Aisle) (use : ResultUse) :
    (s.limitExchange a use).formatMark = s.formatMark := rfl
@[simp] theorem State.limitExchange_pendingUpdate (a : Aisle) (use : ResultUse) :
    (s.limitExchange a use).pendingUpdate = s.pendingUpdate := rfl
@[simp] theorem State.limitExchange_tab (a : Aisle) (use : ResultUse) : (s.limitExchange a use).tab = s.tab := rfl
@[simp] theorem State.limitExchange_dropList (a : Aisle) (use : ResultUse) :
    (s.limitExchange a use).dropList = s.dropList := rfl
@[simp] theorem State.limitExchange_ou (a : Aisle) (use : ResultUse) : (s.limitExchange a use).ou = s.ou := rfl
@[simp] theorem State.limitExchange_alc_shuttles (a : Aisle) (use : ResultUse) :
    (s.limitExchange a use).alc.shuttles = s.alc.shuttles := rfl
@[simp] theorem State.limitExchange_alc_slots (a : Aisle) (use : ResultUse) :
    (s.limitExchange a use).alc.slots = s.alc.slots := rfl
@[simp] theorem State.limitExchange_alc_last2 (a : Aisle) (use : ResultUse) :
    (s.limitExchange a use).alc.last2 = s.alc.last2 := rfl
@[simp] theorem State.limitExchange_alc_last3 (a : Aisle) (use : ResultUse) :
    (s.limitExchange a use).alc.last3 = s.alc.last3 := rfl
@[simp] theorem State.limitExchange_alc_last4 (a : Aisle) (use : ResultUse) :
    (s.limitExchange a use).alc.last4 = s.alc.last4 := rfl
@[simp] theorem State.limitExchange_alc_line (a : Aisle) (use : ResultUse) :
    (s.limitExchange a use).alc.line = s.alc.line := rfl
@[simp] theorem State.limitExchange_alc_exchange (a : Aisle) (use : ResultUse) :
    (s.limitExchange a use).alc.exchange = s.alc.exchange.map fun x => x.limit a use := rfl
@[simp] theorem State.limitExchange_lc (a : Aisle) (use : ResultUse) : (s.limitExchange a use).lc = s.lc := rfl
@[simp] theorem State.limitExchange_su (a : Aisle) (use : ResultUse) : (s.limitExchange a use).su = s.su := rfl
@[simp] theorem State.limitExchange_fiu (a : Aisle) (use : ResultUse) : (s.limitExchange a use).fiu = s.fiu := rfl
@[simp] theorem State.limitExchange_au (a : Aisle) (use : ResultUse) : (s.limitExchange a use).au = s.au := rfl
@[simp] theorem State.limitExchange_win (a : Aisle) (use : ResultUse) : (s.limitExchange a use).win = s.win := rfl
@[simp] theorem State.limitExchange_phase (a : Aisle) (use : ResultUse) : (s.limitExchange a use).phase = s.phase := rfl
@[simp] theorem State.limitExchange_dataOut (a : Aisle) (use : ResultUse) :
    (s.limitExchange a use).dataOut = s.dataOut := rfl
@[simp] theorem State.limitExchange_pending (a : Aisle) (use : ResultUse) :
    (s.limitExchange a use).pending = s.pending := rfl

/-! ## setOutPlace -/

@[simp] theorem State.setOutPlace_formatMark (a : Aisle) (b : Option BinNo) :
    (s.setOutPlace a b).formatMark = s.formatMark := rfl
@[simp] theorem State.setOutPlace_pendingUpdate (a : Aisle) (b : Option BinNo) :
    (s.setOutPlace a b).pendingUpdate = s.pendingUpdate := rfl
@[simp] theorem State.setOutPlace_tab (a : Aisle) (b : Option BinNo) : (s.setOutPlace a b).tab = s.tab := rfl
@[simp] theorem State.setOutPlace_dropList (a : Aisle) (b : Option BinNo) : (s.setOutPlace a b).dropList = s.dropList := rfl
@[simp] theorem State.setOutPlace_ou (a : Aisle) (b : Option BinNo) : (s.setOutPlace a b).ou = s.ou := rfl
@[simp] theorem State.setOutPlace_alc (a : Aisle) (b : Option BinNo) : (s.setOutPlace a b).alc = s.alc := rfl
@[simp] theorem State.setOutPlace_lc_outPlaces (a : Aisle) (b : Option BinNo) :
    (s.setOutPlace a b).lc.outPlaces = s.lc.outPlaces.set a b := rfl
@[simp] theorem State.setOutPlace_lc_inPlaces (a : Aisle) (b : Option BinNo) :
    (s.setOutPlace a b).lc.inPlaces = s.lc.inPlaces := rfl
@[simp] theorem State.setOutPlace_lc_crossing (a : Aisle) (b : Option BinNo) :
    (s.setOutPlace a b).lc.crossing = s.lc.crossing := rfl
@[simp] theorem State.setOutPlace_lc_pointer (a : Aisle) (b : Option BinNo) :
    (s.setOutPlace a b).lc.pointer = s.lc.pointer := rfl
@[simp] theorem State.setOutPlace_lc_lsrc (a : Aisle) (b : Option BinNo) : (s.setOutPlace a b).lc.lsrc = s.lc.lsrc := rfl
@[simp] theorem State.setOutPlace_lc_ldst (a : Aisle) (b : Option BinNo) : (s.setOutPlace a b).lc.ldst = s.lc.ldst := rfl
@[simp] theorem State.setOutPlace_lc_lstop (a : Aisle) (b : Option BinNo) : (s.setOutPlace a b).lc.lstop = s.lc.lstop := rfl
@[simp] theorem State.setOutPlace_lc_lgoPulses (a : Aisle) (b : Option BinNo) :
    (s.setOutPlace a b).lc.lgoPulses = s.lc.lgoPulses := rfl
@[simp] theorem State.setOutPlace_su (a : Aisle) (b : Option BinNo) : (s.setOutPlace a b).su = s.su := rfl
@[simp] theorem State.setOutPlace_fiu (a : Aisle) (b : Option BinNo) : (s.setOutPlace a b).fiu = s.fiu := rfl
@[simp] theorem State.setOutPlace_au (a : Aisle) (b : Option BinNo) : (s.setOutPlace a b).au = s.au := rfl
@[simp] theorem State.setOutPlace_win (a : Aisle) (b : Option BinNo) : (s.setOutPlace a b).win = s.win := rfl
@[simp] theorem State.setOutPlace_phase (a : Aisle) (b : Option BinNo) : (s.setOutPlace a b).phase = s.phase := rfl
@[simp] theorem State.setOutPlace_dataOut (a : Aisle) (b : Option BinNo) : (s.setOutPlace a b).dataOut = s.dataOut := rfl
@[simp] theorem State.setOutPlace_pending (a : Aisle) (b : Option BinNo) : (s.setOutPlace a b).pending = s.pending := rfl

/-! ## setInPlace -/

@[simp] theorem State.setInPlace_formatMark (a : Aisle) (b : Option BinNo) :
    (s.setInPlace a b).formatMark = s.formatMark := rfl
@[simp] theorem State.setInPlace_pendingUpdate (a : Aisle) (b : Option BinNo) :
    (s.setInPlace a b).pendingUpdate = s.pendingUpdate := rfl
@[simp] theorem State.setInPlace_tab (a : Aisle) (b : Option BinNo) : (s.setInPlace a b).tab = s.tab := rfl
@[simp] theorem State.setInPlace_dropList (a : Aisle) (b : Option BinNo) : (s.setInPlace a b).dropList = s.dropList := rfl
@[simp] theorem State.setInPlace_ou (a : Aisle) (b : Option BinNo) : (s.setInPlace a b).ou = s.ou := rfl
@[simp] theorem State.setInPlace_alc (a : Aisle) (b : Option BinNo) : (s.setInPlace a b).alc = s.alc := rfl
@[simp] theorem State.setInPlace_lc_outPlaces (a : Aisle) (b : Option BinNo) :
    (s.setInPlace a b).lc.outPlaces = s.lc.outPlaces := rfl
@[simp] theorem State.setInPlace_lc_inPlaces (a : Aisle) (b : Option BinNo) :
    (s.setInPlace a b).lc.inPlaces = s.lc.inPlaces.set a b := rfl
@[simp] theorem State.setInPlace_lc_crossing (a : Aisle) (b : Option BinNo) :
    (s.setInPlace a b).lc.crossing = s.lc.crossing := rfl
@[simp] theorem State.setInPlace_lc_pointer (a : Aisle) (b : Option BinNo) :
    (s.setInPlace a b).lc.pointer = s.lc.pointer := rfl
@[simp] theorem State.setInPlace_lc_lsrc (a : Aisle) (b : Option BinNo) : (s.setInPlace a b).lc.lsrc = s.lc.lsrc := rfl
@[simp] theorem State.setInPlace_lc_ldst (a : Aisle) (b : Option BinNo) : (s.setInPlace a b).lc.ldst = s.lc.ldst := rfl
@[simp] theorem State.setInPlace_lc_lstop (a : Aisle) (b : Option BinNo) : (s.setInPlace a b).lc.lstop = s.lc.lstop := rfl
@[simp] theorem State.setInPlace_lc_lgoPulses (a : Aisle) (b : Option BinNo) :
    (s.setInPlace a b).lc.lgoPulses = s.lc.lgoPulses := rfl
@[simp] theorem State.setInPlace_su (a : Aisle) (b : Option BinNo) : (s.setInPlace a b).su = s.su := rfl
@[simp] theorem State.setInPlace_fiu (a : Aisle) (b : Option BinNo) : (s.setInPlace a b).fiu = s.fiu := rfl
@[simp] theorem State.setInPlace_au (a : Aisle) (b : Option BinNo) : (s.setInPlace a b).au = s.au := rfl
@[simp] theorem State.setInPlace_win (a : Aisle) (b : Option BinNo) : (s.setInPlace a b).win = s.win := rfl
@[simp] theorem State.setInPlace_phase (a : Aisle) (b : Option BinNo) : (s.setInPlace a b).phase = s.phase := rfl
@[simp] theorem State.setInPlace_dataOut (a : Aisle) (b : Option BinNo) : (s.setInPlace a b).dataOut = s.dataOut := rfl
@[simp] theorem State.setInPlace_pending (a : Aisle) (b : Option BinNo) : (s.setInPlace a b).pending = s.pending := rfl

/-! ## setStationState -/

@[simp] theorem State.setStationState_formatMark (n : StationNo) (st : StationState) :
    (s.setStationState n st).formatMark = s.formatMark := rfl
@[simp] theorem State.setStationState_pendingUpdate (n : StationNo) (st : StationState) :
    (s.setStationState n st).pendingUpdate = s.pendingUpdate := rfl
@[simp] theorem State.setStationState_tab (n : StationNo) (st : StationState) : (s.setStationState n st).tab = s.tab := rfl
@[simp] theorem State.setStationState_dropList (n : StationNo) (st : StationState) :
    (s.setStationState n st).dropList = s.dropList := rfl
@[simp] theorem State.setStationState_ou (n : StationNo) (st : StationState) : (s.setStationState n st).ou = s.ou := rfl
@[simp] theorem State.setStationState_alc (n : StationNo) (st : StationState) : (s.setStationState n st).alc = s.alc := rfl
@[simp] theorem State.setStationState_lc (n : StationNo) (st : StationState) : (s.setStationState n st).lc = s.lc := rfl
@[simp] theorem State.setStationState_su_states (n : StationNo) (st : StationState) :
    (s.setStationState n st).su.states = s.su.states.set n st := rfl
@[simp] theorem State.setStationState_su_queues (n : StationNo) (st : StationState) :
    (s.setStationState n st).su.queues = s.su.queues := rfl
@[simp] theorem State.setStationState_su_reserved (n : StationNo) (st : StationState) :
    (s.setStationState n st).su.reserved = s.su.reserved := rfl
@[simp] theorem State.setStationState_su_outs (n : StationNo) (st : StationState) :
    (s.setStationState n st).su.outs = s.su.outs := rfl
@[simp] theorem State.setStationState_su_intake (n : StationNo) (st : StationState) :
    (s.setStationState n st).su.intake = s.su.intake := rfl
@[simp] theorem State.setStationState_su_hold (n : StationNo) (st : StationState) :
    (s.setStationState n st).su.hold = s.su.hold := rfl
@[simp] theorem State.setStationState_fiu (n : StationNo) (st : StationState) : (s.setStationState n st).fiu = s.fiu := rfl
@[simp] theorem State.setStationState_au (n : StationNo) (st : StationState) : (s.setStationState n st).au = s.au := rfl
@[simp] theorem State.setStationState_win (n : StationNo) (st : StationState) : (s.setStationState n st).win = s.win := rfl
@[simp] theorem State.setStationState_phase (n : StationNo) (st : StationState) :
    (s.setStationState n st).phase = s.phase := rfl
@[simp] theorem State.setStationState_dataOut (n : StationNo) (st : StationState) :
    (s.setStationState n st).dataOut = s.dataOut := rfl
@[simp] theorem State.setStationState_pending (n : StationNo) (st : StationState) :
    (s.setStationState n st).pending = s.pending := rfl

/-! ## setStationOut -/

@[simp] theorem State.setStationOut_formatMark (n : StationNo) (b : Option BinNo) :
    (s.setStationOut n b).formatMark = s.formatMark := rfl
@[simp] theorem State.setStationOut_pendingUpdate (n : StationNo) (b : Option BinNo) :
    (s.setStationOut n b).pendingUpdate = s.pendingUpdate := rfl
@[simp] theorem State.setStationOut_tab (n : StationNo) (b : Option BinNo) : (s.setStationOut n b).tab = s.tab := rfl
@[simp] theorem State.setStationOut_dropList (n : StationNo) (b : Option BinNo) :
    (s.setStationOut n b).dropList = s.dropList := rfl
@[simp] theorem State.setStationOut_ou (n : StationNo) (b : Option BinNo) : (s.setStationOut n b).ou = s.ou := rfl
@[simp] theorem State.setStationOut_alc (n : StationNo) (b : Option BinNo) : (s.setStationOut n b).alc = s.alc := rfl
@[simp] theorem State.setStationOut_lc (n : StationNo) (b : Option BinNo) : (s.setStationOut n b).lc = s.lc := rfl
@[simp] theorem State.setStationOut_su_states (n : StationNo) (b : Option BinNo) :
    (s.setStationOut n b).su.states = s.su.states := rfl
@[simp] theorem State.setStationOut_su_queues (n : StationNo) (b : Option BinNo) :
    (s.setStationOut n b).su.queues = s.su.queues := rfl
@[simp] theorem State.setStationOut_su_reserved (n : StationNo) (b : Option BinNo) :
    (s.setStationOut n b).su.reserved = s.su.reserved := rfl
@[simp] theorem State.setStationOut_su_outs (n : StationNo) (b : Option BinNo) :
    (s.setStationOut n b).su.outs = s.su.outs.set n b := rfl
@[simp] theorem State.setStationOut_su_intake (n : StationNo) (b : Option BinNo) :
    (s.setStationOut n b).su.intake = s.su.intake := rfl
@[simp] theorem State.setStationOut_su_hold (n : StationNo) (b : Option BinNo) :
    (s.setStationOut n b).su.hold = s.su.hold := rfl
@[simp] theorem State.setStationOut_fiu (n : StationNo) (b : Option BinNo) : (s.setStationOut n b).fiu = s.fiu := rfl
@[simp] theorem State.setStationOut_au (n : StationNo) (b : Option BinNo) : (s.setStationOut n b).au = s.au := rfl
@[simp] theorem State.setStationOut_win (n : StationNo) (b : Option BinNo) : (s.setStationOut n b).win = s.win := rfl
@[simp] theorem State.setStationOut_phase (n : StationNo) (b : Option BinNo) : (s.setStationOut n b).phase = s.phase := rfl
@[simp] theorem State.setStationOut_dataOut (n : StationNo) (b : Option BinNo) :
    (s.setStationOut n b).dataOut = s.dataOut := rfl
@[simp] theorem State.setStationOut_pending (n : StationNo) (b : Option BinNo) :
    (s.setStationOut n b).pending = s.pending := rfl

/-! ## setPresentationQueue -/

@[simp] theorem State.setPresentationQueue_formatMark (n : PickNo) (q : List BinNo) :
    (s.setPresentationQueue n q).formatMark = s.formatMark := rfl
@[simp] theorem State.setPresentationQueue_pendingUpdate (n : PickNo) (q : List BinNo) :
    (s.setPresentationQueue n q).pendingUpdate = s.pendingUpdate := rfl
@[simp] theorem State.setPresentationQueue_tab (n : PickNo) (q : List BinNo) :
    (s.setPresentationQueue n q).tab = s.tab := rfl
@[simp] theorem State.setPresentationQueue_dropList (n : PickNo) (q : List BinNo) :
    (s.setPresentationQueue n q).dropList = s.dropList := rfl
@[simp] theorem State.setPresentationQueue_ou (n : PickNo) (q : List BinNo) : (s.setPresentationQueue n q).ou = s.ou := rfl
@[simp] theorem State.setPresentationQueue_alc (n : PickNo) (q : List BinNo) :
    (s.setPresentationQueue n q).alc = s.alc := rfl
@[simp] theorem State.setPresentationQueue_lc (n : PickNo) (q : List BinNo) : (s.setPresentationQueue n q).lc = s.lc := rfl
@[simp] theorem State.setPresentationQueue_su_states (n : PickNo) (q : List BinNo) :
    (s.setPresentationQueue n q).su.states = s.su.states := rfl
@[simp] theorem State.setPresentationQueue_su_queues (n : PickNo) (q : List BinNo) :
    (s.setPresentationQueue n q).su.queues = s.su.queues.set n q := rfl
@[simp] theorem State.setPresentationQueue_su_reserved (n : PickNo) (q : List BinNo) :
    (s.setPresentationQueue n q).su.reserved = s.su.reserved := rfl
@[simp] theorem State.setPresentationQueue_su_outs (n : PickNo) (q : List BinNo) :
    (s.setPresentationQueue n q).su.outs = s.su.outs := rfl
@[simp] theorem State.setPresentationQueue_su_intake (n : PickNo) (q : List BinNo) :
    (s.setPresentationQueue n q).su.intake = s.su.intake := rfl
@[simp] theorem State.setPresentationQueue_su_hold (n : PickNo) (q : List BinNo) :
    (s.setPresentationQueue n q).su.hold = s.su.hold := rfl
@[simp] theorem State.setPresentationQueue_fiu (n : PickNo) (q : List BinNo) :
    (s.setPresentationQueue n q).fiu = s.fiu := rfl
@[simp] theorem State.setPresentationQueue_au (n : PickNo) (q : List BinNo) : (s.setPresentationQueue n q).au = s.au := rfl
@[simp] theorem State.setPresentationQueue_win (n : PickNo) (q : List BinNo) :
    (s.setPresentationQueue n q).win = s.win := rfl
@[simp] theorem State.setPresentationQueue_phase (n : PickNo) (q : List BinNo) :
    (s.setPresentationQueue n q).phase = s.phase := rfl
@[simp] theorem State.setPresentationQueue_dataOut (n : PickNo) (q : List BinNo) :
    (s.setPresentationQueue n q).dataOut = s.dataOut := rfl
@[simp] theorem State.setPresentationQueue_pending (n : PickNo) (q : List BinNo) :
    (s.setPresentationQueue n q).pending = s.pending := rfl

/-! ## setReserved -/

@[simp] theorem State.setReserved_formatMark (n : PickNo) (k : Nat) : (s.setReserved n k).formatMark = s.formatMark := rfl
@[simp] theorem State.setReserved_pendingUpdate (n : PickNo) (k : Nat) :
    (s.setReserved n k).pendingUpdate = s.pendingUpdate := rfl
@[simp] theorem State.setReserved_tab (n : PickNo) (k : Nat) : (s.setReserved n k).tab = s.tab := rfl
@[simp] theorem State.setReserved_dropList (n : PickNo) (k : Nat) : (s.setReserved n k).dropList = s.dropList := rfl
@[simp] theorem State.setReserved_ou (n : PickNo) (k : Nat) : (s.setReserved n k).ou = s.ou := rfl
@[simp] theorem State.setReserved_alc (n : PickNo) (k : Nat) : (s.setReserved n k).alc = s.alc := rfl
@[simp] theorem State.setReserved_lc (n : PickNo) (k : Nat) : (s.setReserved n k).lc = s.lc := rfl
@[simp] theorem State.setReserved_su_states (n : PickNo) (k : Nat) : (s.setReserved n k).su.states = s.su.states := rfl
@[simp] theorem State.setReserved_su_queues (n : PickNo) (k : Nat) : (s.setReserved n k).su.queues = s.su.queues := rfl
@[simp] theorem State.setReserved_su_reserved (n : PickNo) (k : Nat) :
    (s.setReserved n k).su.reserved = s.su.reserved.set n k := rfl
@[simp] theorem State.setReserved_su_outs (n : PickNo) (k : Nat) : (s.setReserved n k).su.outs = s.su.outs := rfl
@[simp] theorem State.setReserved_su_intake (n : PickNo) (k : Nat) : (s.setReserved n k).su.intake = s.su.intake := rfl
@[simp] theorem State.setReserved_su_hold (n : PickNo) (k : Nat) : (s.setReserved n k).su.hold = s.su.hold := rfl
@[simp] theorem State.setReserved_fiu (n : PickNo) (k : Nat) : (s.setReserved n k).fiu = s.fiu := rfl
@[simp] theorem State.setReserved_au (n : PickNo) (k : Nat) : (s.setReserved n k).au = s.au := rfl
@[simp] theorem State.setReserved_win (n : PickNo) (k : Nat) : (s.setReserved n k).win = s.win := rfl
@[simp] theorem State.setReserved_phase (n : PickNo) (k : Nat) : (s.setReserved n k).phase = s.phase := rfl
@[simp] theorem State.setReserved_dataOut (n : PickNo) (k : Nat) : (s.setReserved n k).dataOut = s.dataOut := rfl
@[simp] theorem State.setReserved_pending (n : PickNo) (k : Nat) : (s.setReserved n k).pending = s.pending := rfl

/-! ## setPosition -/

@[simp] theorem State.setPosition_formatMark (p : Position) (st : PosState) :
    (s.setPosition p st).formatMark = s.formatMark := rfl
@[simp] theorem State.setPosition_pendingUpdate (p : Position) (st : PosState) :
    (s.setPosition p st).pendingUpdate = s.pendingUpdate := rfl
@[simp] theorem State.setPosition_tab (p : Position) (st : PosState) : (s.setPosition p st).tab = s.tab := rfl
@[simp] theorem State.setPosition_dropList (p : Position) (st : PosState) : (s.setPosition p st).dropList = s.dropList := rfl
@[simp] theorem State.setPosition_ou (p : Position) (st : PosState) : (s.setPosition p st).ou = s.ou := rfl
@[simp] theorem State.setPosition_alc (p : Position) (st : PosState) : (s.setPosition p st).alc = s.alc := rfl
@[simp] theorem State.setPosition_lc (p : Position) (st : PosState) : (s.setPosition p st).lc = s.lc := rfl
@[simp] theorem State.setPosition_su (p : Position) (st : PosState) : (s.setPosition p st).su = s.su.setPosition p st := rfl
@[simp] theorem State.setPosition_fiu (p : Position) (st : PosState) : (s.setPosition p st).fiu = s.fiu := rfl
@[simp] theorem State.setPosition_au (p : Position) (st : PosState) : (s.setPosition p st).au = s.au := rfl
@[simp] theorem State.setPosition_win (p : Position) (st : PosState) : (s.setPosition p st).win = s.win := rfl
@[simp] theorem State.setPosition_phase (p : Position) (st : PosState) : (s.setPosition p st).phase = s.phase := rfl
@[simp] theorem State.setPosition_dataOut (p : Position) (st : PosState) : (s.setPosition p st).dataOut = s.dataOut := rfl
@[simp] theorem State.setPosition_pending (p : Position) (st : PosState) : (s.setPosition p st).pending = s.pending := rfl

/-! ## latch -/

@[simp] theorem State.latch_formatMark (c : Cause) : (s.latch c).formatMark = s.formatMark := rfl
@[simp] theorem State.latch_pendingUpdate (c : Cause) : (s.latch c).pendingUpdate = s.pendingUpdate := rfl
@[simp] theorem State.latch_tab (c : Cause) : (s.latch c).tab = s.tab := rfl
@[simp] theorem State.latch_dropList (c : Cause) : (s.latch c).dropList = s.dropList := rfl
@[simp] theorem State.latch_ou (c : Cause) : (s.latch c).ou = s.ou := rfl
@[simp] theorem State.latch_alc (c : Cause) : (s.latch c).alc = s.alc := rfl
@[simp] theorem State.latch_lc (c : Cause) : (s.latch c).lc = s.lc := rfl
@[simp] theorem State.latch_su (c : Cause) : (s.latch c).su = s.su := rfl
@[simp] theorem State.latch_fiu (c : Cause) : (s.latch c).fiu = s.fiu := rfl
@[simp] theorem State.latch_au_latches (c : Cause) :
    (s.latch c).au.latches = s.au.latches ||| BitVec.twoPow 11 (c.number - 1) := rfl
@[simp] theorem State.latch_au_fault (c : Cause) : (s.latch c).au.fault = s.au.fault := rfl
@[simp] theorem State.latch_win (c : Cause) : (s.latch c).win = s.win := rfl
@[simp] theorem State.latch_phase (c : Cause) : (s.latch c).phase = s.phase := rfl
@[simp] theorem State.latch_dataOut (c : Cause) : (s.latch c).dataOut = s.dataOut := rfl
@[simp] theorem State.latch_pending (c : Cause) : (s.latch c).pending = s.pending := rfl

/-! ## capture -/

@[simp] theorem State.capture_formatMark (c : Capture) : (s.capture c).formatMark = s.formatMark := rfl
@[simp] theorem State.capture_pendingUpdate (c : Capture) : (s.capture c).pendingUpdate = s.pendingUpdate := rfl
@[simp] theorem State.capture_tab (c : Capture) : (s.capture c).tab = s.tab := rfl
@[simp] theorem State.capture_dropList (c : Capture) : (s.capture c).dropList = s.dropList := rfl
@[simp] theorem State.capture_ou (c : Capture) : (s.capture c).ou = s.ou := rfl
@[simp] theorem State.capture_alc (c : Capture) : (s.capture c).alc = s.alc := rfl
@[simp] theorem State.capture_lc (c : Capture) : (s.capture c).lc = s.lc := rfl
@[simp] theorem State.capture_su (c : Capture) : (s.capture c).su = s.su := rfl
@[simp] theorem State.capture_fiu (c : Capture) : (s.capture c).fiu = s.fiu := rfl
@[simp] theorem State.capture_au_latches (c : Capture) : (s.capture c).au.latches = s.au.latches := rfl
@[simp] theorem State.capture_au_fault (c : Capture) : (s.capture c).au.fault = some (captured c s.au.fault) := rfl
@[simp] theorem State.capture_win (c : Capture) : (s.capture c).win = s.win := rfl
@[simp] theorem State.capture_phase (c : Capture) : (s.capture c).phase = s.phase := rfl
@[simp] theorem State.capture_dataOut (c : Capture) : (s.capture c).dataOut = s.dataOut := rfl
@[simp] theorem State.capture_pending (c : Capture) : (s.capture c).pending = s.pending := rfl

/-! ## endRequest -/

@[simp] theorem State.endRequest_formatMark (c : Code) (a : Answer) : (s.endRequest c a).formatMark = s.formatMark := rfl
@[simp] theorem State.endRequest_pendingUpdate (c : Code) (a : Answer) :
    (s.endRequest c a).pendingUpdate = s.pendingUpdate := rfl
@[simp] theorem State.endRequest_tab (c : Code) (a : Answer) : (s.endRequest c a).tab = s.tab := rfl
@[simp] theorem State.endRequest_dropList (c : Code) (a : Answer) : (s.endRequest c a).dropList = s.dropList := rfl
@[simp] theorem State.endRequest_ou (c : Code) (a : Answer) : (s.endRequest c a).ou = s.ou := rfl
@[simp] theorem State.endRequest_alc (c : Code) (a : Answer) : (s.endRequest c a).alc = s.alc := rfl
@[simp] theorem State.endRequest_lc (c : Code) (a : Answer) : (s.endRequest c a).lc = s.lc := rfl
@[simp] theorem State.endRequest_su (c : Code) (a : Answer) : (s.endRequest c a).su = s.su := rfl
@[simp] theorem State.endRequest_fiu (c : Code) (a : Answer) : (s.endRequest c a).fiu = s.fiu := rfl
@[simp] theorem State.endRequest_au (c : Code) (a : Answer) : (s.endRequest c a).au = s.au := rfl
@[simp] theorem State.endRequest_win_request (c : Code) (a : Answer) : (s.endRequest c a).win.request = s.win.request := rfl
@[simp] theorem State.endRequest_win_busy (c : Code) (a : Answer) : (s.endRequest c a).win.busy = false := rfl
@[simp] theorem State.endRequest_win_collided (c : Code) (a : Answer) :
    (s.endRequest c a).win.collided = s.win.collided := rfl
@[simp] theorem State.endRequest_win_code (c : Code) (a : Answer) : (s.endRequest c a).win.code = c := rfl
@[simp] theorem State.endRequest_win_context (c : Code) (a : Answer) : (s.endRequest c a).win.context = s.win.context := rfl
@[simp] theorem State.endRequest_win_p (c : Code) (a : Answer) : (s.endRequest c a).win.p = s.win.p := rfl
@[simp] theorem State.endRequest_win_a (c : Code) (a : Answer) : (s.endRequest c a).win.a = a := rfl
@[simp] theorem State.endRequest_win_enable (c : Code) (a : Answer) : (s.endRequest c a).win.enable = s.win.enable := rfl
@[simp] theorem State.endRequest_win_levels (c : Code) (a : Answer) : (s.endRequest c a).win.levels = s.win.levels := rfl
@[simp] theorem State.endRequest_win_release (c : Code) (a : Answer) : (s.endRequest c a).win.release = s.win.release := rfl
@[simp] theorem State.endRequest_win_waiting (c : Code) (a : Answer) : (s.endRequest c a).win.waiting = none := rfl
@[simp] theorem State.endRequest_phase (c : Code) (a : Answer) : (s.endRequest c a).phase = s.phase := rfl
@[simp] theorem State.endRequest_dataOut (c : Code) (a : Answer) : (s.endRequest c a).dataOut = s.dataOut := rfl
@[simp] theorem State.endRequest_pending (c : Code) (a : Answer) : (s.endRequest c a).pending = s.pending := rfl

/-! ## storeRequest -/

@[simp] theorem State.storeRequest_formatMark (c : Word) : (s.storeRequest c).formatMark = s.formatMark := rfl
@[simp] theorem State.storeRequest_pendingUpdate (c : Word) : (s.storeRequest c).pendingUpdate = s.pendingUpdate := rfl
@[simp] theorem State.storeRequest_tab (c : Word) : (s.storeRequest c).tab = s.tab := rfl
@[simp] theorem State.storeRequest_dropList (c : Word) : (s.storeRequest c).dropList = s.dropList := rfl
@[simp] theorem State.storeRequest_ou (c : Word) : (s.storeRequest c).ou = s.ou := rfl
@[simp] theorem State.storeRequest_alc (c : Word) : (s.storeRequest c).alc = s.alc := rfl
@[simp] theorem State.storeRequest_lc (c : Word) : (s.storeRequest c).lc = s.lc := rfl
@[simp] theorem State.storeRequest_su (c : Word) : (s.storeRequest c).su = s.su := rfl
@[simp] theorem State.storeRequest_fiu (c : Word) : (s.storeRequest c).fiu = s.fiu := rfl
@[simp] theorem State.storeRequest_au (c : Word) : (s.storeRequest c).au = s.au := rfl
@[simp] theorem State.storeRequest_win_request (c : Word) : (s.storeRequest c).win.request = c := rfl
@[simp] theorem State.storeRequest_win_busy (c : Word) : (s.storeRequest c).win.busy = true := rfl
@[simp] theorem State.storeRequest_win_collided (c : Word) : (s.storeRequest c).win.collided = s.win.collided := rfl
@[simp] theorem State.storeRequest_win_code (c : Word) : (s.storeRequest c).win.code = s.win.code := rfl
@[simp] theorem State.storeRequest_win_context (c : Word) : (s.storeRequest c).win.context = s.win.context := rfl
@[simp] theorem State.storeRequest_win_p (c : Word) : (s.storeRequest c).win.p = s.win.p := rfl
@[simp] theorem State.storeRequest_win_a (c : Word) : (s.storeRequest c).win.a = s.win.a := rfl
@[simp] theorem State.storeRequest_win_enable (c : Word) : (s.storeRequest c).win.enable = s.win.enable := rfl
@[simp] theorem State.storeRequest_win_levels (c : Word) : (s.storeRequest c).win.levels = s.win.levels := rfl
@[simp] theorem State.storeRequest_win_release (c : Word) : (s.storeRequest c).win.release = .none := rfl
@[simp] theorem State.storeRequest_win_waiting (c : Word) : (s.storeRequest c).win.waiting = s.win.waiting := rfl
@[simp] theorem State.storeRequest_phase (c : Word) : (s.storeRequest c).phase = s.phase := rfl
@[simp] theorem State.storeRequest_dataOut (c : Word) : (s.storeRequest c).dataOut = s.dataOut := rfl
@[simp] theorem State.storeRequest_pending (c : Word) : (s.storeRequest c).pending = s.pending := rfl

/-! ## collide -/

@[simp] theorem State.collide_formatMark : (s.collide).formatMark = s.formatMark := rfl
@[simp] theorem State.collide_pendingUpdate : (s.collide).pendingUpdate = s.pendingUpdate := rfl
@[simp] theorem State.collide_tab : (s.collide).tab = s.tab := rfl
@[simp] theorem State.collide_dropList : (s.collide).dropList = s.dropList := rfl
@[simp] theorem State.collide_ou : (s.collide).ou = s.ou := rfl
@[simp] theorem State.collide_alc : (s.collide).alc = s.alc := rfl
@[simp] theorem State.collide_lc : (s.collide).lc = s.lc := rfl
@[simp] theorem State.collide_su : (s.collide).su = s.su := rfl
@[simp] theorem State.collide_fiu : (s.collide).fiu = s.fiu := rfl
@[simp] theorem State.collide_au : (s.collide).au = s.au := rfl
@[simp] theorem State.collide_win_request : (s.collide).win.request = s.win.request := rfl
@[simp] theorem State.collide_win_busy : (s.collide).win.busy = s.win.busy := rfl
@[simp] theorem State.collide_win_collided : (s.collide).win.collided = true := rfl
@[simp] theorem State.collide_win_code : (s.collide).win.code = s.win.code := rfl
@[simp] theorem State.collide_win_context : (s.collide).win.context = s.win.context := rfl
@[simp] theorem State.collide_win_p : (s.collide).win.p = s.win.p := rfl
@[simp] theorem State.collide_win_a : (s.collide).win.a = s.win.a := rfl
@[simp] theorem State.collide_win_enable : (s.collide).win.enable = s.win.enable := rfl
@[simp] theorem State.collide_win_levels : (s.collide).win.levels = s.win.levels := rfl
@[simp] theorem State.collide_win_release : (s.collide).win.release = .none := rfl
@[simp] theorem State.collide_win_waiting : (s.collide).win.waiting = s.win.waiting := rfl
@[simp] theorem State.collide_phase : (s.collide).phase = s.phase := rfl
@[simp] theorem State.collide_dataOut : (s.collide).dataOut = s.dataOut := rfl
@[simp] theorem State.collide_pending : (s.collide).pending = s.pending := rfl

/-! ## breakRelease -/

@[simp] theorem State.breakRelease_formatMark : (s.breakRelease).formatMark = s.formatMark := rfl
@[simp] theorem State.breakRelease_pendingUpdate : (s.breakRelease).pendingUpdate = s.pendingUpdate := rfl
@[simp] theorem State.breakRelease_tab : (s.breakRelease).tab = s.tab := rfl
@[simp] theorem State.breakRelease_dropList : (s.breakRelease).dropList = s.dropList := rfl
@[simp] theorem State.breakRelease_ou : (s.breakRelease).ou = s.ou := rfl
@[simp] theorem State.breakRelease_alc : (s.breakRelease).alc = s.alc := rfl
@[simp] theorem State.breakRelease_lc : (s.breakRelease).lc = s.lc := rfl
@[simp] theorem State.breakRelease_su : (s.breakRelease).su = s.su := rfl
@[simp] theorem State.breakRelease_fiu : (s.breakRelease).fiu = s.fiu := rfl
@[simp] theorem State.breakRelease_au : (s.breakRelease).au = s.au := rfl
@[simp] theorem State.breakRelease_win_request : (s.breakRelease).win.request = s.win.request := rfl
@[simp] theorem State.breakRelease_win_busy : (s.breakRelease).win.busy = s.win.busy := rfl
@[simp] theorem State.breakRelease_win_collided : (s.breakRelease).win.collided = s.win.collided := rfl
@[simp] theorem State.breakRelease_win_code : (s.breakRelease).win.code = s.win.code := rfl
@[simp] theorem State.breakRelease_win_context : (s.breakRelease).win.context = s.win.context := rfl
@[simp] theorem State.breakRelease_win_p : (s.breakRelease).win.p = s.win.p := rfl
@[simp] theorem State.breakRelease_win_a : (s.breakRelease).win.a = s.win.a := rfl
@[simp] theorem State.breakRelease_win_enable : (s.breakRelease).win.enable = s.win.enable := rfl
@[simp] theorem State.breakRelease_win_levels : (s.breakRelease).win.levels = s.win.levels := rfl
@[simp] theorem State.breakRelease_win_release : (s.breakRelease).win.release = .none := rfl
@[simp] theorem State.breakRelease_win_waiting : (s.breakRelease).win.waiting = s.win.waiting := rfl
@[simp] theorem State.breakRelease_phase : (s.breakRelease).phase = s.phase := rfl
@[simp] theorem State.breakRelease_dataOut : (s.breakRelease).dataOut = s.dataOut := rfl
@[simp] theorem State.breakRelease_pending : (s.breakRelease).pending = s.pending := rfl

/-! ## setPin -/

@[simp] theorem State.setPin_formatMark (z : ZoneNo) (active : Bool) : (s.setPin z active).formatMark = s.formatMark := rfl
@[simp] theorem State.setPin_pendingUpdate (z : ZoneNo) (active : Bool) :
    (s.setPin z active).pendingUpdate = s.pendingUpdate := rfl
@[simp] theorem State.setPin_tab (z : ZoneNo) (active : Bool) : (s.setPin z active).tab = s.tab := rfl
@[simp] theorem State.setPin_dropList (z : ZoneNo) (active : Bool) : (s.setPin z active).dropList = s.dropList := rfl
@[simp] theorem State.setPin_ou (z : ZoneNo) (active : Bool) : (s.setPin z active).ou = s.ou := rfl
@[simp] theorem State.setPin_alc (z : ZoneNo) (active : Bool) : (s.setPin z active).alc = s.alc := rfl
@[simp] theorem State.setPin_lc (z : ZoneNo) (active : Bool) : (s.setPin z active).lc = s.lc := rfl
@[simp] theorem State.setPin_su (z : ZoneNo) (active : Bool) : (s.setPin z active).su = s.su := rfl
@[simp] theorem State.setPin_fiu_zones (z : ZoneNo) (active : Bool) : (s.setPin z active).fiu.zones = s.fiu.zones := rfl
@[simp] theorem State.setPin_fiu_alm (z : ZoneNo) (active : Bool) :
    (s.setPin z active).fiu.alm = s.fiu.alm.set z active := rfl
@[simp] theorem State.setPin_au (z : ZoneNo) (active : Bool) : (s.setPin z active).au = s.au := rfl
@[simp] theorem State.setPin_win (z : ZoneNo) (active : Bool) : (s.setPin z active).win = s.win := rfl
@[simp] theorem State.setPin_phase (z : ZoneNo) (active : Bool) : (s.setPin z active).phase = s.phase := rfl
@[simp] theorem State.setPin_dataOut (z : ZoneNo) (active : Bool) : (s.setPin z active).dataOut = s.dataOut := rfl
@[simp] theorem State.setPin_pending (z : ZoneNo) (active : Bool) : (s.setPin z active).pending = s.pending := rfl

/-! ## setPosition -/

@[simp] theorem StationUnit.setPosition_states (u : StationUnit) (p : Position) (st : PosState) :
    (u.setPosition p st).states = u.states := by cases p <;> rfl
@[simp] theorem StationUnit.setPosition_queues (u : StationUnit) (p : Position) (st : PosState) :
    (u.setPosition p st).queues = u.queues := by cases p <;> rfl
@[simp] theorem StationUnit.setPosition_reserved (u : StationUnit) (p : Position) (st : PosState) :
    (u.setPosition p st).reserved = u.reserved := by cases p <;> rfl
@[simp] theorem StationUnit.setPosition_outs (u : StationUnit) (p : Position) (st : PosState) :
    (u.setPosition p st).outs = u.outs := by cases p <;> rfl

end Sys2Proof.Machine
end

