-- ==== Sys2Proof/Laws/Table.lean ====
section
/-! SUPPORT. What the operations on keyed tables do: reading over writing, the canonical form, the range of the keys and the
length. -/

namespace Sys2Proof.Machine

variable {α : Type}

/-! ## Rows of records -/

@[simp] theorem mapRow_getElem {β : Type} {n : Nat} (f : α → β) (v : Vector α n) (i : Nat) (h : i < n) :
    (mapRow f v)[i] = f v[i] := by
  simp [mapRow, Vector.getElem_mk]

/-! ## Keys above a bound -/

theorem tableAbove_mono {a b : Nat} (h : a ≤ b) : ∀ {t : Table α}, tableAbove b t = true → tableAbove a t = true
  | [], _ => rfl
  | (k, _) :: t, hb => by
    simp only [tableAbove, Bool.and_eq_true, decide_eq_true_eq] at hb ⊢
    exact ⟨by omega, hb.2⟩

theorem tableSorted_of_above {b : Nat} : ∀ {t : Table α}, tableAbove b t = true → tableSorted t = true
  | [], _ => rfl
  | (_, _) :: _, h => by
    simp only [tableAbove, Bool.and_eq_true] at h
    exact h.2

theorem tableFind_of_above {b k : Nat} (hk : k ≤ b) : ∀ {t : Table α}, tableAbove b t = true → tableFind k t = none
  | [], _ => rfl
  | (k', _) :: t, h => by
    simp only [tableAbove, Bool.and_eq_true, decide_eq_true_eq] at h
    have hne : k' ≠ k := by omega
    simp only [tableFind, hne, if_false]
    exact tableFind_of_above (b := k') (by omega) h.2

theorem tableInsert_above {b k : Nat} (v : α) (hb : b < k) :
    ∀ {t : Table α}, tableAbove b t = true → tableAbove b (tableInsert k v t) = true
  | [], _ => by simp [tableInsert, tableAbove, hb]
  | (k', v') :: t, h => by
    simp only [tableAbove, Bool.and_eq_true, decide_eq_true_eq] at h
    unfold tableInsert
    split
    · rename_i hlt
      simp only [tableAbove, Bool.and_eq_true, decide_eq_true_eq]
      exact ⟨hb, hlt, h.2⟩
    · rename_i hge
      split
      · rename_i heq
        subst heq
        simp only [tableAbove, Bool.and_eq_true, decide_eq_true_eq]
        exact ⟨hb, h.2⟩
      · rename_i hne
        simp only [tableAbove, Bool.and_eq_true, decide_eq_true_eq]
        exact ⟨h.1, tableInsert_above v (by omega) h.2⟩

theorem tableErase_above {b k : Nat} : ∀ {t : Table α}, tableAbove b t = true → tableAbove b (tableErase k t) = true
  | [], _ => rfl
  | (k', v') :: t, h => by
    simp only [tableAbove, Bool.and_eq_true, decide_eq_true_eq] at h
    unfold tableErase
    split
    · exact tableAbove_mono (by omega) h.2
    · simp only [tableAbove, Bool.and_eq_true, decide_eq_true_eq]
      exact ⟨h.1, tableErase_above h.2⟩

theorem tableUpdate_above {b k : Nat} (f : α → α) : ∀ {t : Table α}, tableAbove b (tableUpdate k f t) = tableAbove b t
  | [] => rfl
  | (k', v') :: t => by
    unfold tableUpdate
    split
    · rfl
    · simp only [tableAbove, tableUpdate_above]

theorem tableMap_above {b : Nat} (f : α → α) : ∀ {t : Table α}, tableAbove b (tableMap f t) = tableAbove b t
  | [] => rfl
  | (k', v') :: t => by simp only [tableMap, tableAbove, tableMap_above]

/-! ## The canonical form -/

theorem tableInsert_sorted (k : Nat) (v : α) {t : Table α} (h : tableSorted t = true) :
    tableSorted (tableInsert k v t) = true := by
  cases t with
  | nil => rfl
  | cons e t =>
    obtain ⟨k', v'⟩ := e
    simp only [tableSorted] at h
    unfold tableInsert
    split
    · rename_i hlt
      simp only [tableSorted, tableAbove, Bool.and_eq_true, decide_eq_true_eq]
      exact ⟨hlt, h⟩
    · split
      · rename_i heq
        subst heq
        exact h
      · simp only [tableSorted]
        exact tableInsert_above v (by omega) h

theorem tableErase_sorted (k : Nat) {t : Table α} (h : tableSorted t = true) : tableSorted (tableErase k t) = true := by
  cases t with
  | nil => rfl
  | cons e t =>
    obtain ⟨k', v'⟩ := e
    simp only [tableSorted] at h
    unfold tableErase
    split
    · exact tableSorted_of_above h
    · simp only [tableSorted]
      exact tableErase_above h

@[simp] theorem tableUpdate_sorted (k : Nat) (f : α → α) (t : Table α) :
    tableSorted (tableUpdate k f t) = tableSorted t := by
  cases t with
  | nil => rfl
  | cons e t =>
    obtain ⟨k', v'⟩ := e
    unfold tableUpdate
    split
    · rfl
    · simp only [tableSorted, tableUpdate_above]

@[simp] theorem tableMap_sorted (f : α → α) (t : Table α) : tableSorted (tableMap f t) = tableSorted t := by
  cases t with
  | nil => rfl
  | cons e t => simp only [tableMap, tableSorted, tableMap_above]

/-! ## The range of the keys -/

theorem tableInsert_keysIn {lo hi k : Nat} (v : α) (h1 : lo ≤ k) (h2 : k ≤ hi) :
    ∀ {t : Table α}, tableKeysIn lo hi t = true → tableKeysIn lo hi (tableInsert k v t) = true
  | [], _ => by simp [tableInsert, tableKeysIn, h1, h2]
  | (k', v') :: t, h => by
    unfold tableInsert
    split
    · simp only [tableKeysIn, Bool.and_eq_true, decide_eq_true_eq] at h ⊢
      exact ⟨⟨h1, h2⟩, h⟩
    · split
      · simp only [tableKeysIn, Bool.and_eq_true, decide_eq_true_eq] at h ⊢
        exact ⟨⟨h1, h2⟩, h.2⟩
      · simp only [tableKeysIn, Bool.and_eq_true, decide_eq_true_eq] at h ⊢
        exact ⟨h.1, tableInsert_keysIn v h1 h2 h.2⟩

theorem tableErase_keysIn {lo hi k : Nat} :
    ∀ {t : Table α}, tableKeysIn lo hi t = true → tableKeysIn lo hi (tableErase k t) = true
  | [], _ => rfl
  | (k', v') :: t, h => by
    simp only [tableKeysIn, Bool.and_eq_true, decide_eq_true_eq] at h
    unfold tableErase
    split
    · exact h.2
    · simp only [tableKeysIn, Bool.and_eq_true, decide_eq_true_eq]
      exact ⟨h.1, tableErase_keysIn h.2⟩

@[simp] theorem tableUpdate_keysIn (lo hi k : Nat) (f : α → α) :
    ∀ t : Table α, tableKeysIn lo hi (tableUpdate k f t) = tableKeysIn lo hi t
  | [] => rfl
  | (k', v') :: t => by
    unfold tableUpdate
    split
    · rfl
    · simp only [tableKeysIn, tableUpdate_keysIn]

@[simp] theorem tableMap_keysIn (lo hi : Nat) (f : α → α) :
    ∀ t : Table α, tableKeysIn lo hi (tableMap f t) = tableKeysIn lo hi t
  | [] => rfl
  | (k', v') :: t => by simp only [tableMap, tableKeysIn, tableMap_keysIn]

/-! ## Reading over writing -/

theorem tableFind_insert_self (k : Nat) (v : α) : ∀ t : Table α, tableFind k (tableInsert k v t) = some v
  | [] => by simp [tableInsert, tableFind]
  | (k', v') :: t => by
    unfold tableInsert
    split
    · simp [tableFind]
    · split
      · simp [tableFind]
      · rename_i hne
        have : k' ≠ k := fun h => hne h.symm
        simp only [tableFind, this, if_false, tableFind_insert_self]

theorem tableFind_insert_ne {j k : Nat} (v : α) (h : j ≠ k) :
    ∀ t : Table α, tableFind j (tableInsert k v t) = tableFind j t
  | [] => by simp [tableInsert, tableFind, h.symm]
  | (k', v') :: t => by
    unfold tableInsert
    split
    · simp [tableFind, h.symm]
    · split
      · rename_i heq
        subst heq
        simp [tableFind, h.symm]
      · simp only [tableFind, tableFind_insert_ne v h]

theorem tableFind_erase_ne {j k : Nat} (h : j ≠ k) : ∀ t : Table α, tableFind j (tableErase k t) = tableFind j t
  | [] => rfl
  | (k', v') :: t => by
    unfold tableErase
    split
    · rename_i heq
      subst heq
      simp [tableFind, h.symm]
    · simp only [tableFind, tableFind_erase_ne h]

theorem tableFind_erase_self (k : Nat) :
    ∀ {t : Table α}, tableSorted t = true → tableFind k (tableErase k t) = none
  | [], _ => rfl
  | (k', v') :: t, h => by
    simp only [tableSorted] at h
    unfold tableErase
    split
    · rename_i heq
      exact tableFind_of_above (by omega) h
    · rename_i hne
      simp only [tableFind, hne, if_false]
      exact tableFind_erase_self k (tableSorted_of_above h)

theorem tableFind_update_self (k : Nat) (f : α → α) :
    ∀ t : Table α, tableFind k (tableUpdate k f t) = (tableFind k t).map f
  | [] => rfl
  | (k', v') :: t => by
    unfold tableUpdate
    split
    · rename_i heq
      simp [tableFind, heq]
    · rename_i hne
      simp only [tableFind, hne, if_false, tableFind_update_self]

theorem tableFind_update_ne {j k : Nat} (f : α → α) (h : j ≠ k) :
    ∀ t : Table α, tableFind j (tableUpdate k f t) = tableFind j t
  | [] => rfl
  | (k', v') :: t => by
    unfold tableUpdate
    split
    · rename_i heq
      subst heq
      simp [tableFind, h.symm]
    · simp only [tableFind, tableFind_update_ne f h]

theorem tableFind_map (k : Nat) (f : α → α) : ∀ t : Table α, tableFind k (tableMap f t) = (tableFind k t).map f
  | [] => rfl
  | (k', v') :: t => by
    simp only [tableMap, tableFind]
    split
    · rfl
    · exact tableFind_map k f t

/-! ## The length -/

@[simp] theorem tableUpdate_length (k : Nat) (f : α → α) : ∀ t : Table α, (tableUpdate k f t).length = t.length
  | [] => rfl
  | (k', v') :: t => by
    unfold tableUpdate
    split
    · rfl
    · simp only [List.length_cons, tableUpdate_length]

theorem tableErase_length_le (k : Nat) : ∀ t : Table α, (tableErase k t).length ≤ t.length
  | [] => Nat.le_refl _
  | (k', v') :: t => by
    unfold tableErase
    split
    · simp
    · simp only [List.length_cons]
      have := tableErase_length_le k t
      omega

/-- A new record makes a table longer by 1. -/
theorem tableInsert_length_new (k : Nat) (v : α) :
    ∀ {t : Table α}, tableFind k t = none → (tableInsert k v t).length = t.length + 1
  | [], _ => rfl
  | (k', v') :: t, h => by
    unfold tableInsert
    split
    · simp
    · split
      · rename_i heq
        simp [tableFind, heq] at h
      · rename_i hne
        have hne' : k' ≠ k := fun e => hne e.symm
        simp only [tableFind, hne', if_false] at h
        simp only [List.length_cons, tableInsert_length_new k v h]

/-- A record written over another leaves the length of a table in canonical form. -/
theorem tableInsert_length_old (k : Nat) (v : α) :
    ∀ {t : Table α}, tableSorted t = true → (tableFind k t).isSome = true → (tableInsert k v t).length = t.length
  | [], _, h => by simp [tableFind] at h
  | (k', v') :: t, hs, h => by
    simp only [tableSorted] at hs
    unfold tableInsert
    split
    · rename_i hlt
      have hne : k' ≠ k := by omega
      simp only [tableFind, hne, if_false] at h
      rw [tableFind_of_above (by omega) hs] at h
      simp at h
    · split
      · simp
      · rename_i hne
        have hne' : k' ≠ k := fun e => hne e.symm
        simp only [tableFind, hne', if_false] at h
        simp only [List.length_cons]
        rw [tableInsert_length_old k v (tableSorted_of_above hs) h]

/-! ## The keys of a table -/

/-- A key that a table finds lies in the range of its keys. -/
theorem tableKeysIn_of_find {lo hi k : Nat} :
    ∀ {t : Table α}, tableKeysIn lo hi t = true → (tableFind k t).isSome = true → lo ≤ k ∧ k ≤ hi
  | [], _, h => by simp [tableFind] at h
  | (k', v') :: t, hk, h => by
    simp only [tableKeysIn, Bool.and_eq_true, decide_eq_true_eq] at hk
    by_cases heq : k' = k
    · subst heq; exact hk.1
    · simp only [tableFind, heq, if_false] at h
      exact tableKeysIn_of_find hk.2 h

end Sys2Proof.Machine
end

