-- ==== Sys2Proof/Laws/Still.lean ====
section
/-! SUPPORT. What the work of the blocks leaves as it stands: the part of the state that no dispatch, grant, halt, revival or
settling touches, with one lemma per shared operation. -/

namespace Sys2Proof.Machine

set_option linter.unusedTactic false
set_option linter.unreachableTactic false
set_option linter.unnecessarySeqFocus false

/-- The fields of a bin record that only the host's requests and the return station's placing change. -/
def BinRec.facts (r : BinRec) : BinRec := { r with place := .home, holder := none }

/-- What only a window access, a reset, an alarm pin or the queue changes. -/
structure Kept where
  formatMark : Bool
  pendingUpdate : Option PendingUpdate
  segments : Vector Segment 32
  binFacts : Table BinRec
  items : Table Item
  patrons : Table Patron
  categories : Vector CategoryRow 4
  day : Nat
  supervised : Vector Bool 5
  deadlines : Vector Nat 4
  dropList : List Tag
  alm : Vector Bool 4
  lines : Vector Bool 4
  request : Word
  collided : Bool
  context : Word
  p : Vector Word 6
  enable : BitVec 11
  levels : BitVec 6
  release : Release
  phase : Phase
  dataOut : Word
  pending : List Instr

/-- What no work of the blocks changes but for the fire zones: the part `kept`, the zones, LSTOP, and the latch bits that belong
to condition causes. -/
structure Still where
  kept : Kept
  zones : Vector Zone 4
  lstop : Bool
  stray : BitVec 11

def State.still (s : State) : Still :=
  { kept :=
      { formatMark := s.formatMark, pendingUpdate := s.pendingUpdate, segments := s.tab.segments
        binFacts := tableMap BinRec.facts s.tab.bins, items := s.tab.items, patrons := s.tab.patrons
        categories := s.tab.categories, day := s.tab.day, supervised := s.tab.supervised
        deadlines := s.tab.deadlines, dropList := s.dropList, alm := s.fiu.alm, lines := mapRow Zone.line s.fiu.zones
        request := s.win.request, collided := s.win.collided, context := s.win.context, p := s.win.p
        enable := s.win.enable, levels := s.win.levels, release := s.win.release, phase := s.phase
        dataOut := s.dataOut, pending := s.pending }
    zones := s.fiu.zones
    lstop := s.lc.lstop
    stray := s.au.latches &&& ~~~eventMask }

/-! ## Tools -/

theorem tableMap_update {α : Type} (g : α → α) (f : α → α) (h : ∀ r, g (f r) = g r) (k : Nat) :
    ∀ t : Table α, tableMap g (tableUpdate k f t) = tableMap g t
  | [] => rfl
  | (k', v) :: t => by
    unfold tableUpdate
    split
    · simp [tableMap, h]
    · simp only [tableMap, tableMap_update g f h k t]

/-- A walk whose every step leaves the still part leaves it. -/
theorem still_foldl {ι : Type} (f : State → ι → State) (h : ∀ s i, (f s i).still = s.still) :
    ∀ (l : List ι) (s : State), (l.foldl f s).still = s.still
  | [], _ => rfl
  | i :: l, s => by rw [List.foldl_cons, still_foldl f h l, h]

/-- A walk whose every step leaves the kept part leaves it. -/
theorem kept_foldl {ι : Type} (f : State → ι → State) (h : ∀ s i, (f s i).still.kept = s.still.kept) :
    ∀ (l : List ι) (s : State), (l.foldl f s).still.kept = s.still.kept
  | [], _ => rfl
  | i :: l, s => by rw [List.foldl_cons, kept_foldl f h l, h]

/-! ## The primitive updates -/

variable (s : State)

@[simp] theorem still_changeBin (b : BinNo) (f : BinRec → BinRec) (h : ∀ r, (f r).facts = r.facts) :
    (s.changeBin b f).still = s.still := by
  simp only [State.still, State.changeBin, tableMap_update BinRec.facts f h]

@[simp] theorem still_setPlace (b : BinNo) (p : Place) : (s.setPlace b p).still = s.still :=
  still_changeBin s b _ fun _ => rfl

@[simp] theorem still_setHolder (b : BinNo) (o : Option OrderNo) : (s.setHolder b o).still = s.still :=
  still_changeBin s b _ fun _ => rfl

@[simp] theorem still_unsettle (b : BinNo) : (s.unsettle b).still = s.still :=
  still_changeBin s b _ fun r => by split <;> rfl

@[simp] theorem still_unsettleFree (b : BinNo) : (s.unsettleFree b).still = s.still :=
  still_changeBin s b _ fun r => by split <;> rfl

@[simp] theorem still_putOrder (o : OrderNo) (r : Order) : (s.putOrder o r).still = s.still := rfl
@[simp] theorem still_freeOrder (o : OrderNo) : (s.freeOrder o).still = s.still := rfl
@[simp] theorem still_setQueue (a : Aisle) (q : List OrderNo) : (s.setQueue a q).still = s.still := rfl
@[simp] theorem still_withdrawClaims (ks : List Nat) : (s.withdrawClaims ks).still = s.still := rfl
@[simp] theorem still_fileClaim (c : Claim) : (s.fileClaim c).still = s.still := rfl
@[simp] theorem still_putShuttle (a : Aisle) (r : Shuttle) : (s.putShuttle a r).still = s.still := rfl
@[simp] theorem still_changeShuttle (a : Aisle) (f : Shuttle → Shuttle) : (s.changeShuttle a f).still = s.still := rfl
@[simp] theorem still_setSlot (a : Aisle) (m : Option Message) : (s.setSlot a m).still = s.still := rfl
@[simp] theorem still_limitExchange (a : Aisle) (u : ResultUse) : (s.limitExchange a u).still = s.still := rfl
@[simp] theorem still_setOutPlace (a : Aisle) (b : Option BinNo) : (s.setOutPlace a b).still = s.still := rfl
@[simp] theorem still_setInPlace (a : Aisle) (b : Option BinNo) : (s.setInPlace a b).still = s.still := rfl
@[simp] theorem still_setStationState (n : StationNo) (st : StationState) :
    (s.setStationState n st).still = s.still := rfl
@[simp] theorem still_setStationOut (n : StationNo) (b : Option BinNo) : (s.setStationOut n b).still = s.still := rfl
@[simp] theorem still_setPresentationQueue (n : PickNo) (q : List BinNo) :
    (s.setPresentationQueue n q).still = s.still := rfl
@[simp] theorem still_setReserved (n : PickNo) (k : Nat) : (s.setReserved n k).still = s.still := rfl
@[simp] theorem still_setPosition (p : Position) (st : PosState) : (s.setPosition p st).still = s.still := rfl
@[simp] theorem still_capture (c : Capture) : (s.capture c).still = s.still := rfl
@[simp] theorem still_endRequest (c : Code) (a : Answer) : (s.endRequest c a).still = s.still := rfl

/-- The latch of an event cause is no stray bit (R171). -/
@[simp] theorem still_latch (c : Cause) (h : c.isEvent = true) : (s.latch c).still = s.still := by
  have h0 : BitVec.twoPow 11 (c.number - 1) &&& ~~~eventMask = 0 := by cases c <;> first | decide | simp [Cause.isEvent] at h
  have hb : (s.au.latches ||| BitVec.twoPow 11 (c.number - 1)) &&& ~~~eventMask = s.au.latches &&& ~~~eventMask := by
    rw [BitVec.and_comm, BitVec.and_or_distrib_left, BitVec.and_comm _ (BitVec.twoPow _ _), h0]
    simp [BitVec.and_comm]
  simp only [State.still, State.latch, hb]

/-! ## The work of the blocks -/

/-! ### Orders -/
/-- Only the Order Unit's state is replaced. -/
theorem still_withOu (u : OrderUnit) : ({ s with ou := u } : State).still = s.still := rfl

/-- Only the Aisle Link Controller's state is replaced. -/
theorem still_withAlc (u : LinkUnit) : ({ s with alc := u } : State).still = s.still := rfl

@[simp] theorem still_joinQueue (a : Aisle) (o : OrderNo) : (s.joinQueue a o).still = s.still := rfl
@[simp] theorem still_leaveQueue (a : Aisle) (o : OrderNo) : (s.leaveQueue a o).still = s.still := rfl
@[simp] theorem still_giveCommand (a : Aisle) (m : Motion) (fire : Bool) : (s.giveCommand a m fire).still = s.still := rfl
@[simp] theorem still_clearCommand (a : Aisle) : (s.clearCommand a).still = s.still := rfl
@[simp] theorem still_goIdle (a : Aisle) : (s.goIdle a).still = s.still := rfl

@[simp] theorem still_placeOrder (o : OrderNo) (r : Order) : (s.placeOrder o r).still = s.still := by
  simp only [State.placeOrder]
  (repeat' split) <;> first | (simp (decide := true); done) | (rw [still_withOu]; simp; done) | (simp (decide := true); rfl) | rfl

@[simp] theorem still_reserve (n : PickNo) : (s.reserve n).still = s.still := by
  simp only [State.reserve]
  (repeat' split) <;> first | (simp (decide := true); done) | (rw [still_withOu]; simp; done) | (simp (decide := true); rfl) | rfl

@[simp] theorem still_unreserve (n : PickNo) : (s.unreserve n).still = s.still := by
  simp only [State.unreserve]
  (repeat' split) <;> first | (simp (decide := true); done) | (rw [still_withOu]; simp; done) | (simp (decide := true); rfl) | rfl

@[simp] theorem still_endPositionFetch (p : Position) (o : OrderNo) (b : BinNo) (out : Outcome) :
    (s.endPositionFetch p o b out).still = s.still := by
  simp only [State.endPositionFetch]
  (repeat' split) <;> first | (simp (decide := true); done) | (rw [still_withOu]; simp; done) | (simp (decide := true); rfl) | rfl

@[simp] theorem still_endDestination (o : OrderNo) (b : BinNo) (out : Outcome) (dest : Option Dest) :
    (s.endDestination o b out dest).still = s.still := by
  simp only [State.endDestination]
  (repeat' split) <;> first | (simp (decide := true); done) | (rw [still_withOu]; simp; done) | (simp (decide := true); rfl) | rfl

@[simp] theorem still_dropCurrent (a : Aisle) (o : OrderNo) : (s.dropCurrent a o).still = s.still := by
  simp only [State.dropCurrent]
  (repeat' split) <;> first | (simp (decide := true); done) | (rw [still_withOu]; simp; done) | (simp (decide := true); rfl) | rfl

@[simp] theorem still_finishOrder (o : OrderNo) (out : Outcome) : (s.finishOrder o out).still = s.still := by
  simp only [State.finishOrder]
  (repeat' split) <;> first | (simp (decide := true); done) | (rw [still_withOu]; simp; done) | (simp (decide := true); rfl) | rfl

@[simp] theorem still_finishIdle (a : Aisle) (o : OrderNo) (out : Outcome) : (s.finishIdle a o out).still = s.still := by
  simp only [State.finishIdle]
  (repeat' split) <;> first | (simp (decide := true); done) | (rw [still_withOu]; simp; done) | (simp (decide := true); rfl) | rfl

@[simp] theorem still_enterStage (a : Aisle) (o : OrderNo) (r : Order) (st : RunStage) (m : Motion) :
    (s.enterStage a o r st m).still = s.still := by
  simp only [State.enterStage]
  (repeat' split) <;> first | (simp (decide := true); done) | (rw [still_withOu]; simp; done) | (simp (decide := true); rfl) | rfl

@[simp] theorem still_startOrder (a : Aisle) (o : OrderNo) : (s.startOrder a o).still = s.still := by
  simp only [State.startOrder]
  (repeat' split) <;> first | (simp (decide := true); done) | (rw [still_withOu]; simp; done) | (simp (decide := true); rfl) | rfl

@[simp] theorem still_dispatch (a : Aisle) : (s.dispatch a).still = s.still := by
  simp only [State.dispatch]
  (repeat' split) <;> first | (simp (decide := true); done) | (rw [still_withOu]; simp; done) | (simp (decide := true); rfl) | rfl

@[simp] theorem still_quietPark (a : Aisle) : (s.quietPark a).still = s.still := by
  simp only [State.quietPark]
  (repeat' split) <;> first | (simp (decide := true); done) | (rw [still_withOu]; simp; done) | (simp (decide := true); rfl) | rfl

@[simp] theorem still_haltCurrent (a : Aisle) (reason : HaltReason) : (s.haltCurrent a reason).still = s.still := by
  simp only [State.haltCurrent]
  (repeat' split) <;> first | (simp (decide := true); done) | (rw [still_withOu]; simp; done) | (simp (decide := true); rfl) | rfl

@[simp] theorem still_board (a : Aisle) (b : BinNo) : (s.board a b).still = s.still := by
  simp only [State.board]
  (repeat' split) <;> first | (simp (decide := true); done) | (rw [still_withOu]; simp; done) | (simp (decide := true); rfl) | rfl

@[simp] theorem still_unboard (a : Aisle) (b : BinNo) (p : Place) : (s.unboard a b p).still = s.still := by
  simp only [State.unboard]
  (repeat' split) <;> first | (simp (decide := true); done) | (rw [still_withOu]; simp; done) | (simp (decide := true); rfl) | rfl

@[simp] theorem still_liftDone (a : Aisle) (o : OrderNo) (r : Order) (label : Label) :
    (s.liftDone a o r label).still = s.still := by
  simp only [State.liftDone]
  (repeat' split) <;> first | (simp (decide := true); done) | (rw [still_withOu]; simp; done) | (simp (decide := true); rfl) | rfl

@[simp] theorem still_probeDone (a : Aisle) (o : OrderNo) (r : Order) (label : Label) :
    (s.probeDone a o r label).still = s.still := by
  simp only [State.probeDone]
  (repeat' split) <;> first | (simp (decide := true); done) | (rw [still_withOu]; simp; done) | (simp (decide := true); rfl) | rfl

@[simp] theorem still_lowerDone (a : Aisle) (o : OrderNo) (r : Order) : (s.lowerDone a o r).still = s.still := by
  simp only [State.lowerDone]
  (repeat' split) <;> first | (simp (decide := true); done) | (rw [still_withOu]; simp; done) | (simp (decide := true); rfl) | rfl

@[simp] theorem still_toPortDone (a : Aisle) (o : OrderNo) (r : Order) : (s.toPortDone a o r).still = s.still := by
  simp only [State.toPortDone]
  (repeat' split) <;> first | (simp (decide := true); done) | (rw [still_withOu]; simp; done) | (simp (decide := true); rfl) | rfl

@[simp] theorem still_handOffDone (a : Aisle) (o : OrderNo) (r : Order) : (s.handOffDone a o r).still = s.still := by
  simp only [State.handOffDone]
  (repeat' split) <;> first | (simp (decide := true); done) | (rw [still_withOu]; simp; done) | (simp (decide := true); rfl) | rfl

@[simp] theorem still_takeOnDone (a : Aisle) (o : OrderNo) (r : Order) : (s.takeOnDone a o r).still = s.still := by
  simp only [State.takeOnDone]
  (repeat' split) <;> first | (simp (decide := true); done) | (rw [still_withOu]; simp; done) | (simp (decide := true); rfl) | rfl

@[simp] theorem still_seekDone (a : Aisle) (o : OrderNo) (r : Order) : (s.seekDone a o r).still = s.still := by
  simp only [State.seekDone]
  (repeat' split) <;> first | (simp (decide := true); done) | (rw [still_withOu]; simp; done) | (simp (decide := true); rfl) | rfl

@[simp] theorem still_stageDone (a : Aisle) (o : OrderNo) (r : Order) (st : RunStage) (label : Label) :
    (s.stageDone a o r st label).still = s.still := by
  simp only [State.stageDone]
  (repeat' split) <;> first | (simp (decide := true); done) | (rw [still_withOu]; simp; done) | (simp (decide := true); rfl) | rfl

@[simp] theorem still_parkDone (a : Aisle) (fire : Bool) : (s.parkDone a fire).still = s.still := by
  simp only [State.parkDone]
  (repeat' split) <;> first | (simp (decide := true); done) | (rw [still_withOu]; simp; done) | (simp (decide := true); rfl) | rfl

@[simp] theorem still_completeCommand (a : Aisle) (c : InFlight) (label : Label) :
    (s.completeCommand a c label).still = s.still := by
  simp only [State.completeCommand]
  (repeat' split) <;> first | (simp (decide := true); done) | (rw [still_withOu]; simp; done) | (simp (decide := true); rfl) | rfl

@[simp] theorem still_resumeHolding (a : Aisle) : (s.resumeHolding a).still = s.still := by
  simp only [State.resumeHolding]
  (repeat' split) <;> first | (simp (decide := true); done) | (rw [still_withOu]; simp; done) | (simp (decide := true); rfl) | rfl

@[simp] theorem still_resumeTakeOn (a : Aisle) : (s.resumeTakeOn a).still = s.still := by
  simp only [State.resumeTakeOn]
  (repeat' split) <;> first | (simp (decide := true); done) | (rw [still_withOu]; simp; done) | (simp (decide := true); rfl) | rfl

@[simp] theorem still_makeRestore (a : Aisle) (b : BinNo) : (s.makeRestore a b).2.still = s.still := by
  simp only [State.makeRestore]
  (repeat' split) <;> first | (simp (decide := true); done) | (rw [still_withOu]; simp; done) | (simp (decide := true); rfl) | rfl

/-! ### Lane -/

@[simp] theorem still_driveLane (q : Requester) (d : CrossDest) : (s.driveLane q d).still = s.still := by
  simp only [State.driveLane]
  (repeat' split) <;> first | (simp (decide := true); done) | (rw [still_withOu]; simp; done) | (simp (decide := true); rfl) | rfl

@[simp] theorem still_idleLane : s.idleLane.still = s.still := by
  simp only [State.idleLane]
  (repeat' split) <;> first | (simp (decide := true); done) | (rw [still_withOu]; simp; done) | (simp (decide := true); rfl) | rfl

@[simp] theorem still_emptySource (q : Requester) : (s.emptySource q).still = s.still := by
  simp only [State.emptySource]
  (repeat' split) <;> first | (simp (decide := true); done) | (rw [still_withOu]; simp; done) | (simp (decide := true); rfl) | rfl

@[simp] theorem still_setStage (o : OrderNo) (st : RunStage) : (s.setStage o st).still = s.still := by
  simp only [State.setStage]
  (repeat' split) <;> first | (simp (decide := true); done) | (rw [still_withOu]; simp; done) | (simp (decide := true); rfl) | rfl

@[simp] theorem still_grantCrossing (q : Requester) (b : BinNo) (o : OrderNo) (d : CrossDest) :
    (s.grantCrossing q b o d).still = s.still := by
  simp only [State.grantCrossing]
  (repeat' split) <;> first | (simp (decide := true); done) | (rw [still_withOu]; simp; done) | (simp (decide := true); rfl) | rfl

@[simp] theorem still_lookForCrossing : s.lookForCrossing.still = s.still := by
  simp only [State.lookForCrossing]
  (repeat' split) <;> first | (simp (decide := true); done) | (rw [still_withOu]; simp; done) | (simp (decide := true); rfl) | rfl

@[simp] theorem still_clearCrossing : s.clearCrossing.still = s.still := by
  simp only [State.clearCrossing]
  (repeat' split) <;> first | (simp (decide := true); done) | (rw [still_withOu]; simp; done) | (simp (decide := true); rfl) | rfl

@[simp] theorem still_arriveAtPick (n : PickNo) (b : BinNo) : (s.arriveAtPick n b).still = s.still := by
  simp only [State.arriveAtPick]
  (repeat' split) <;> first | (simp (decide := true); done) | (rw [still_withOu]; simp; done) | (simp (decide := true); rfl) | rfl

@[simp] theorem still_deliver (c : Crossing) : (s.deliver c).still = s.still := by
  simp only [State.deliver]
  (repeat' split) <;> first | (simp (decide := true); done) | (rw [still_withOu]; simp; done) | (simp (decide := true); rfl) | rfl

@[simp] theorem still_failCrossing (c : Crossing) (kind : FaultKind) : (s.failCrossing c kind).still = s.still := by
  simp only [State.failCrossing]
  (repeat' split) <;> first | (simp (decide := true); done) | (rw [still_withOu]; simp; done) | (simp (decide := true); rfl) | rfl

/-! ### Stations -/

@[simp] theorem still_becomeActive : s.becomeActive.still = s.still := by
  unfold State.becomeActive
  rw [still_foldl _ (fun s a => by split <;> simp)]
  rfl

@[simp] theorem still_wakeByNeed : s.wakeByNeed.still = s.still := by
  simp only [State.wakeByNeed]
  (repeat' split) <;> first | (simp (decide := true); done) | (rw [still_withOu]; simp; done) | (simp (decide := true); rfl) | rfl

@[simp] theorem still_dismissInto (o : OrderNo) (p : Position) (b : BinNo) : (s.dismissInto o p b).still = s.still := by
  simp only [State.dismissInto]
  (repeat' split) <;> first | (simp (decide := true); done) | (rw [still_withOu]; simp; done) | (simp (decide := true); rfl) | rfl

@[simp] theorem still_tryDismissal (p : Position) : (s.tryDismissal p).still = s.still := by
  simp only [State.tryDismissal]
  (repeat' split) <;> first | (simp (decide := true); done) | (rw [still_withOu]; simp; done) | (simp (decide := true); rfl) | rfl

@[simp] theorem still_callBin (o : OrderNo) (p : Position) (b : BinNo) : (s.callBin o p b).still = s.still := by
  simp only [State.callBin]
  (repeat' split) <;> first | (simp (decide := true); done) | (rw [still_withOu]; simp; done) | (simp (decide := true); rfl) | rfl

@[simp] theorem still_enterWanting (p : Position) : (s.enterWanting p).still = s.still := by
  simp only [State.enterWanting]
  (repeat' split) <;> first | (simp (decide := true); done) | (rw [still_withOu]; simp; done) | (simp (decide := true); rfl) | rfl

@[simp] theorem still_takeFetchClaim (p : Position) : (s.takeFetchClaim p).still = s.still := by
  simp only [State.takeFetchClaim]
  (repeat' split) <;> first | (simp (decide := true); done) | (rw [still_withOu]; simp; done) | (simp (decide := true); rfl) | rfl

@[simp] theorem still_tryFetch (p : Position) : (s.tryFetch p).still = s.still := by
  simp only [State.tryFetch]
  (repeat' split) <;> first | (simp (decide := true); done) | (rw [still_withOu]; simp; done) | (simp (decide := true); rfl) | rfl

@[simp] theorem still_tendPositions : s.tendPositions.still = s.still := by
  simp only [State.tendPositions]
  (repeat' split) <;> first | (simp (decide := true); done) | (rw [still_withOu]; simp; done) | (simp (decide := true); rfl) | rfl

@[simp] theorem still_stopWanting (p : Position) : (s.stopWanting p).still = s.still := by
  simp only [State.stopWanting]
  (repeat' split) <;> first | (simp (decide := true); done) | (rw [still_withOu]; simp; done) | (simp (decide := true); rfl) | rfl

@[simp] theorem still_closeReturn : s.closeReturn.still = s.still := by
  simp only [State.closeReturn]
  (repeat' split) <;> first | (simp (decide := true); done) | (rw [still_withOu]; simp; done) | (simp (decide := true); rfl) | rfl

@[simp] theorem still_holdReturn : s.holdReturn.still = s.still := by
  simp only [State.holdReturn]
  (repeat' split) <;> first | (simp (decide := true); done) | (rw [still_withOu]; simp; done) | (simp (decide := true); rfl) | rfl

/-! ### Fire -/

@[simp] theorem still_refuseWaiter (m : Message) : (s.refuseWaiter m).still = s.still := by
  simp only [State.refuseWaiter]
  (repeat' split) <;> first | (simp (decide := true); done) | (rw [still_withOu]; simp; done) | (simp (decide := true); rfl) | rfl

@[simp] theorem still_withdrawForAlarm (a : Aisle) : (s.withdrawForAlarm a).still = s.still := by
  simp only [State.withdrawForAlarm]
  (repeat' split) <;> first | (simp (decide := true); done) | (rw [still_withOu]; simp; done) | (simp (decide := true); rfl) | rfl

@[simp] theorem still_limitForAlarm (a : Aisle) : (s.limitForAlarm a).still = s.still := by
  simp only [State.limitForAlarm]
  (repeat' split) <;> first | (simp (decide := true); done) | (rw [still_withOu]; simp; done) | (simp (decide := true); rfl) | rfl

@[simp] theorem still_withdrawPortCommand (a : Aisle) : (s.withdrawPortCommand a).still = s.still := by
  simp only [State.withdrawPortCommand]
  (repeat' split) <;> first | (simp (decide := true); done) | (rw [still_withOu]; simp; done) | (simp (decide := true); rfl) | rfl

@[simp] theorem still_withdrawWaitingPort (a : Aisle) : (s.withdrawWaitingPort a).still = s.still := by
  simp only [State.withdrawWaitingPort]
  (repeat' split) <;> first | (simp (decide := true); done) | (rw [still_withOu]; simp; done) | (simp (decide := true); rfl) | rfl

@[simp] theorem still_placeFirePark (a : Aisle) : (s.placeFirePark a).still = s.still := by
  simp only [State.placeFirePark]
  (repeat' split) <;> first | (simp (decide := true); done) | (rw [still_withOu]; simp; done) | (simp (decide := true); rfl) | rfl

@[simp] theorem still_takeQuietPark (a : Aisle) (c : InFlight) : (s.takeQuietPark a c).still = s.still := by
  simp only [State.takeQuietPark]
  (repeat' split) <;> first | (simp (decide := true); done) | (rw [still_withOu]; simp; done) | (simp (decide := true); rfl) | rfl

@[simp] theorem still_parkForFire (a : Aisle) : (s.parkForFire a).still = s.still := by
  simp only [State.parkForFire]
  (repeat' split) <;> first | (simp (decide := true); done) | (rw [still_withOu]; simp; done) | (simp (decide := true); rfl) | rfl

@[simp] theorem still_alarmShuttle (a : Aisle) : (s.alarmShuttle a).still = s.still := by
  simp only [State.alarmShuttle]
  (repeat' split) <;> first | (simp (decide := true); done) | (rw [still_withOu]; simp; done) | (simp (decide := true); rfl) | rfl

@[simp] theorem still_alarmAisles (z : ZoneNo) : (s.alarmAisles z).still = s.still := by
  unfold State.alarmAisles
  rw [still_foldl _ (fun s a => by simp)]
  simp

@[simp] theorem still_holdStations : s.holdStations.still = s.still := by
  simp only [State.holdStations]
  (repeat' split) <;> first | (simp (decide := true); done) | (rw [still_withOu]; simp; done) | (simp (decide := true); rfl) | rfl

@[simp] theorem still_silenceShuttle (a : Aisle) : (s.silenceShuttle a).still = s.still := by
  simp only [State.silenceShuttle]
  (repeat' split) <;> first | (simp (decide := true); done) | (rw [still_withOu]; simp; done) | (simp (decide := true); rfl) | rfl

@[simp] theorem still_sealShuttle (a : Aisle) : (s.sealShuttle a).still = s.still := by
  simp only [State.sealShuttle]
  (repeat' split) <;> first | (simp (decide := true); done) | (rw [still_withOu]; simp; done) | (simp (decide := true); rfl) | rfl

@[simp] theorem still_strand : s.strand.still = s.still := by
  simp only [State.strand]
  (repeat' split) <;> first | (simp (decide := true); done) | (rw [still_withOu]; simp; done) | (simp (decide := true); rfl) | rfl

@[simp] theorem still_catchShuttle (a : Aisle) : (s.catchShuttle a).still = s.still := by
  simp only [State.catchShuttle]
  (repeat' split) <;> first | (simp (decide := true); done) | (rw [still_withOu]; simp; done) | (simp (decide := true); rfl) | rfl

@[simp] theorem still_recoverShuttle (a : Aisle) : (s.recoverShuttle a).still = s.still := by
  simp only [State.recoverShuttle]
  (repeat' split) <;> first | (simp (decide := true); done) | (rw [still_withOu]; simp; done) | (simp (decide := true); rfl) | rfl

@[simp] theorem still_releaseStations : s.releaseStations.still = s.still := by
  simp only [State.releaseStations]
  (repeat' split) <;> first | (simp (decide := true); done) | (rw [still_withOu]; simp; done) | (simp (decide := true); rfl) | rfl

/-! ### Settle -/

@[simp] theorem still_workAisle (a : Aisle) : (s.workAisle a).still = s.still := by
  simp only [State.workAisle]
  (repeat' split) <;> first | (simp (decide := true); done) | (rw [still_withOu]; simp; done) | (simp (decide := true); rfl) | rfl

@[simp] theorem still_workAisles : s.workAisles.still = s.still := by
  unfold State.workAisles
  rw [still_foldl _ (fun s a => by simp)]

@[simp] theorem still_parkIdle : s.parkIdle.still = s.still := by
  unfold State.parkIdle
  rw [still_foldl _ (fun s a => by simp)]

@[simp] theorem still_tryQuiet : s.tryQuiet.still = s.still := by
  simp only [State.tryQuiet]
  (repeat' split) <;> first | (simp (decide := true); done) | (rw [still_withOu]; simp; done) | (simp (decide := true); rfl) | rfl

@[simp] theorem still_tryAuditEnd : s.tryAuditEnd.still = s.still := by
  simp only [State.tryAuditEnd]
  (repeat' split) <;> first | (simp (decide := true); done) | (rw [still_withOu]; simp; done) | (simp (decide := true); rfl) | rfl

/-! ### Link -/

@[simp] theorem still_failWaiter (a : Aisle) (m : Message) : (s.failWaiter a m).still = s.still := by
  simp only [State.failWaiter]
  (repeat' split) <;> first | (simp (decide := true); done) | (rw [still_withOu]; simp; done) | (simp (decide := true); rfl) | rfl

@[simp] theorem still_withdrawStopped (a : Aisle) : (s.withdrawStopped a).still = s.still := by
  simp only [State.withdrawStopped]
  (repeat' split) <;> first | (simp (decide := true); done) | (rw [still_withOu]; simp; done) | (simp (decide := true); rfl) | rfl

@[simp] theorem still_goOffline (a : Aisle) : (s.goOffline a).still = s.still := by
  simp only [State.goOffline]
  (repeat' split) <;> first | (simp (decide := true); done) | (rw [still_withOu]; simp; done) | (simp (decide := true); rfl) | rfl

@[simp] theorem still_silent (a : Aisle) : (s.silent a).still = s.still := by
  simp only [State.silent]
  (repeat' split) <;> first | (simp (decide := true); done) | (rw [still_withOu]; simp; done) | (simp (decide := true); rfl) | rfl

@[simp] theorem still_heard (a : Aisle) (ans : LinkAnswer) : (s.heard a ans).still = s.still := by
  simp only [State.heard]
  (repeat' split) <;> first | (simp (decide := true); done) | (rw [still_withOu]; simp; done) | (simp (decide := true); rfl) | rfl

@[simp] theorem still_faultShuttle (a : Aisle) (code : Byte) : (s.faultShuttle a code).still = s.still := by
  simp only [State.faultShuttle]
  (repeat' split) <;> first | (simp (decide := true); done) | (rw [still_withOu]; simp; done) | (simp (decide := true); rfl) | rfl

@[simp] theorem still_markCommand (a : Aisle) (m : CommandMark) : (s.markCommand a m).still = s.still := by
  simp only [State.markCommand]
  (repeat' split) <;> first | (simp (decide := true); done) | (rw [still_withOu]; simp; done) | (simp (decide := true); rfl) | rfl

@[simp] theorem still_acceptCommand (a : Aisle) : (s.acceptCommand a).still = s.still := by
  simp only [State.acceptCommand]
  (repeat' split) <;> first | (simp (decide := true); done) | (rw [still_withOu]; simp; done) | (simp (decide := true); rfl) | rfl

@[simp] theorem still_commandResult (a : Aisle) (ans : Option LinkAnswer) : (s.commandResult a ans).still = s.still := by
  simp only [State.commandResult]
  (repeat' split) <;> first | (simp (decide := true); done) | (rw [still_withOu]; simp; done) | (simp (decide := true); rfl) | rfl

@[simp] theorem still_parkAfterExchange (a : Aisle) : (s.parkAfterExchange a).still = s.still := by
  simp only [State.parkAfterExchange]
  (repeat' split) <;> first | (simp (decide := true); done) | (rw [still_withOu]; simp; done) | (simp (decide := true); rfl) | rfl

@[simp] theorem still_sendAgain (a : Aisle) (c : InFlight) : (s.sendAgain a c).still = s.still := by
  simp only [State.sendAgain]
  (repeat' split) <;> first | (simp (decide := true); done) | (rw [still_withOu]; simp; done) | (simp (decide := true); rfl) | rfl

@[simp] theorem still_pollUnconfirmed (a : Aisle) (c : InFlight) (st : StatusAnswer) :
    (s.pollUnconfirmed a c st).still = s.still := by
  simp only [State.pollUnconfirmed]
  (repeat' split) <;> first | (simp (decide := true); done) | (rw [still_withOu]; simp; done) | (simp (decide := true); rfl) | rfl

@[simp] theorem still_pollAccepted (a : Aisle) (c : InFlight) (st : StatusAnswer) :
    (s.pollAccepted a c st).still = s.still := by
  simp only [State.pollAccepted]
  (repeat' split) <;> first | (simp (decide := true); done) | (rw [still_withOu]; simp; done) | (simp (decide := true); rfl) | rfl

@[simp] theorem still_pollWaiting (a : Aisle) (st : StatusAnswer) : (s.pollWaiting a st).still = s.still := by
  simp only [State.pollWaiting]
  (repeat' split) <;> first | (simp (decide := true); done) | (rw [still_withOu]; simp; done) | (simp (decide := true); rfl) | rfl

@[simp] theorem still_pollResult (a : Aisle) (ans : Option LinkAnswer) : (s.pollResult a ans).still = s.still := by
  simp only [State.pollResult]
  (repeat' split) <;> first | (simp (decide := true); done) | (rw [still_withOu]; simp; done) | (simp (decide := true); rfl) | rfl

@[simp] theorem still_overrun (a : Aisle) : (s.overrun a).still = s.still := by
  simp only [State.overrun]
  (repeat' split) <;> first | (simp (decide := true); done) | (rw [still_withOu]; simp; done) | (simp (decide := true); rfl) | rfl

@[simp] theorem still_loseCarried (a : Aisle) : (s.loseCarried a).still = s.still := by
  simp only [State.loseCarried]
  (repeat' split) <;> first | (simp (decide := true); done) | (rw [still_withOu]; simp; done) | (simp (decide := true); rfl) | rfl

@[simp] theorem still_loseOther (a : Aisle) (keep : BinNo) : (s.loseOther a keep).still = s.still := by
  simp only [State.loseOther]
  (repeat' split) <;> first | (simp (decide := true); done) | (rw [still_withOu]; simp; done) | (simp (decide := true); rfl) | rfl

@[simp] theorem still_rejectLabel (a : Aisle) (b : BinNo) (o : Option OrderNo) : (s.rejectLabel a b o).still = s.still := by
  simp only [State.rejectLabel]
  (repeat' split) <;> first | (simp (decide := true); done) | (rw [still_withOu]; simp; done) | (simp (decide := true); rfl) | rfl

@[simp] theorem still_acceptLabel (a : Aisle) (b : BinNo) (kept : Bool) : (s.acceptLabel a b kept).2.still = s.still := by
  simp only [State.acceptLabel]
  (repeat' split) <;> first | (simp (decide := true); done) | (rw [still_withOu]; simp; done) | (simp (decide := true); rfl) | rfl

@[simp] theorem still_reviveWithBin (a : Aisle) (b : BinNo) : (s.reviveWithBin a b).2.still = s.still := by
  simp only [State.reviveWithBin]
  (repeat' split) <;> first | (simp (decide := true); done) | (rw [still_withOu]; simp; done) | (simp (decide := true); rfl) | rfl

@[simp] theorem still_reviveUnreadable (a : Aisle) : (s.reviveUnreadable a).still = s.still := by
  simp only [State.reviveUnreadable]
  (repeat' split) <;> first | (simp (decide := true); done) | (rw [still_withOu]; simp; done) | (simp (decide := true); rfl) | rfl

@[simp] theorem still_reviveAtRest (a : Aisle) (st : StatusAnswer) : (s.reviveAtRest a st).2.still = s.still := by
  simp only [State.reviveAtRest]
  (repeat' split) <;> first | (simp (decide := true); done) | (rw [still_withOu]; simp; done) | (simp (decide := true); rfl) | rfl

@[simp] theorem still_reviveFaulted (a : Aisle) (code : Byte) : (s.reviveFaulted a code).still = s.still := by
  simp only [State.reviveFaulted]
  (repeat' split) <;> first | (simp (decide := true); done) | (rw [still_withOu]; simp; done) | (simp (decide := true); rfl) | rfl

@[simp] theorem still_reviveUnanswered (a : Aisle) : (s.reviveUnanswered a).still = s.still := by
  simp only [State.reviveUnanswered]
  (repeat' split) <;> first | (simp (decide := true); done) | (rw [still_withOu]; simp; done) | (simp (decide := true); rfl) | rfl

@[simp] theorem still_revive (a : Aisle) (ans : Option LinkAnswer) : (s.revive a ans).2.still = s.still := by
  simp only [State.revive]
  (repeat' split) <;> first | (simp (decide := true); done) | (rw [still_withOu]; simp; done) | (simp (decide := true); rfl) | rfl

@[simp] theorem still_revivalResult (a : Aisle) (ans : Option LinkAnswer) : (s.revivalResult a ans).still = s.still := by
  simp only [State.revivalResult]
  (repeat' split) <;> first | (simp (decide := true); done) | (rw [still_withOu]; simp; done) | (simp (decide := true); rfl) | rfl

@[simp] theorem still_hostRevivalResult (a : Aisle) (ans : Option LinkAnswer) :
    (s.hostRevivalResult a ans).still = s.still := by
  simp only [State.hostRevivalResult]
  (repeat' split) <;> first | (simp (decide := true); done) | (rw [still_withOu]; simp; done) | (simp (decide := true); rfl) | rfl

@[simp] theorem still_followCourse (a : Aisle) (o : OrderNo) (r : Order) (h : Restart) (c : Course) (label : Label) :
    (s.followCourse a o r h c label).still = s.still := by
  simp only [State.followCourse]
  (repeat' split) <;> first | (simp (decide := true); done) | (rw [still_withOu]; simp; done) | (simp (decide := true); rfl) | rfl

@[simp] theorem still_resumeWith (a : Aisle) (o : OrderNo) (st : StatusAnswer) : (s.resumeWith a o st).still = s.still := by
  simp only [State.resumeWith]
  (repeat' split) <;> first | (simp (decide := true); done) | (rw [still_withOu]; simp; done) | (simp (decide := true); rfl) | rfl

@[simp] theorem still_resumeResult (a : Aisle) (ans : Option LinkAnswer) : (s.resumeResult a ans).still = s.still := by
  simp only [State.resumeResult]
  (repeat' split) <;> first | (simp (decide := true); done) | (rw [still_withOu]; simp; done) | (simp (decide := true); rfl) | rfl

@[simp] theorem still_refuseRequest (k : ExchangeKind) : (s.refuseRequest k).still = s.still := by
  simp only [State.refuseRequest]
  (repeat' split) <;> first | (simp (decide := true); done) | (rw [still_withOu]; simp; done) | (simp (decide := true); rfl) | rfl

@[simp] theorem still_countOnly (a : Aisle) (ans : Option LinkAnswer) : (s.countOnly a ans).still = s.still := by
  simp only [State.countOnly]
  (repeat' split) <;> first | (simp (decide := true); done) | (rw [still_withOu]; simp; done) | (simp (decide := true); rfl) | rfl

@[simp] theorem still_applyResult (a : Aisle) (k : ExchangeKind) (ans : Option LinkAnswer) :
    (s.applyResult a k ans).still = s.still := by
  simp only [State.applyResult]
  (repeat' split) <;> first | (simp (decide := true); done) | (rw [still_withOu]; simp; done) | (simp (decide := true); rfl) | rfl

@[simp] theorem still_endExchange (x : Exchange) (ans : Option LinkAnswer) : (s.endExchange x ans).still = s.still := by
  simp only [State.endExchange]
  (repeat' split) <;> first | (simp (decide := true); done) | (rw [still_withOu]; simp; done) | (simp (decide := true); rfl) | rfl

@[simp] theorem still_rotate (c : GrantClass) (a : Aisle) : (s.rotate c a).still = s.still := by
  simp only [State.rotate]
  (repeat' split) <;> first | (simp (decide := true); done) | (rw [still_withOu]; simp; done) | (simp (decide := true); rfl) | rfl

@[simp] theorem still_beginExchange (c : GrantClass) (a : Aisle) : (s.beginExchange c a).still = s.still := by
  exact Eq.trans (b := ((s.rotate c a).setSlot a none).still) rfl (by simp)

@[simp] theorem still_dropStaleRevival (a : Aisle) : (s.dropStaleRevival a).still = s.still := by
  simp only [State.dropStaleRevival]
  (repeat' split) <;> first | (simp (decide := true); done) | (rw [still_withOu]; simp; done) | (simp (decide := true); rfl) | rfl

@[simp] theorem still_placeRevivalAgain (a : Aisle) : (s.placeRevivalAgain a).still = s.still := by
  simp only [State.placeRevivalAgain]
  (repeat' split) <;> first | (simp (decide := true); done) | (rw [still_withOu]; simp; done) | (simp (decide := true); rfl) | rfl

end Sys2Proof.Machine
end

