-- ==== Sys2Proof/Laws/Fire.lean ====
section
/-! SUPPORT. What the zones' own operations and the settling of a step keep: the part `kept` of the state, the latch bits that
belong to condition causes, and the laws of the CLR lines (R142) and of LSTOP (R97). -/

namespace Sys2Proof.Machine

variable (s : State)

/-! ## Writing one record of a row -/

theorem mapRow_set {α β : Type} {n : Nat} (f : α → β) (v : Vector α n) (i : Nat) (h : i < n) (x : α)
    (hx : f x = f v[i]) : mapRow f (v.set i x h) = mapRow f v := by
  ext j hj
  simp only [mapRow_getElem, Vector.getElem_set]
  split
  · rename_i e; subst e; exact hx
  · rfl

/-- A zone's record after a zone's state is written (R142). -/
theorem zone_setZoneState (z w : ZoneNo) (st : ZoneState) :
    (s.setZoneState z st).zone w =
      if z = w then { s.zone z with state := st, clr := decide (st = .sealed) } else s.zone w := by
  simp only [State.zone, State.setZoneState_fiu_zones, Fin.getElem_fin, Vector.getElem_set, Fin.ext_iff]

/-! ## The kept part and the stray latch bits -/

/-- The part of the state that no event of the fire zones changes either. -/
def State.calm (s : State) : Kept × BitVec 11 := (s.still.kept, s.still.stray)

theorem calm_of_still {s t : State} (h : t.still = s.still) : t.calm = s.calm := by simp only [State.calm, h]

theorem kept_of_calm {s t : State} (h : t.calm = s.calm) : t.still.kept = s.still.kept := congrArg Prod.fst h

theorem stray_of_calm {s t : State} (h : t.calm = s.calm) : t.still.stray = s.still.stray := congrArg Prod.snd h

/-- A walk whose every step leaves the calm part leaves it. -/
theorem calm_foldl {ι : Type} (f : State → ι → State) (h : ∀ s i, (f s i).calm = s.calm) :
    ∀ (l : List ι) (s : State), (l.foldl f s).calm = s.calm
  | [], _ => rfl
  | i :: l, s => by rw [List.foldl_cons, calm_foldl f h l, h]

@[simp] theorem calm_setZoneState (z : ZoneNo) (st : ZoneState) : (s.setZoneState z st).calm = s.calm := by
  have h : mapRow Zone.line (s.setZoneState z st).fiu.zones = mapRow Zone.line s.fiu.zones :=
    mapRow_set _ _ _ _ _ rfl
  simp only [State.calm, State.still, h]
  rfl

@[simp] theorem calm_latch (c : Cause) (h : c.isEvent = true) : (s.latch c).calm = s.calm :=
  calm_of_still (still_latch s c h)

@[simp] theorem calm_stopLane : s.stopLane.calm = s.calm := by
  simp only [State.stopLane]
  split <;> rfl

@[simp] theorem calm_rerunLane : s.rerunLane.calm = s.calm := by
  simp only [State.rerunLane]
  (repeat' split) <;> first
    | rfl
    | (exact (calm_of_still (still_changeBin _ _ _ fun r => by split <;> rfl)).trans rfl)

@[simp] theorem calm_sealZone (z : ZoneNo) : (s.sealZone z).calm = s.calm := by
  simp only [State.sealZone]
  split
  · rw [calm_of_still (still_strand _)]; simp (decide := true)
  · rw [calm_foldl _ fun s a => calm_of_still (still_sealShuttle s a)]; simp (decide := true)

@[simp] theorem calm_trySeal (z : ZoneNo) : (s.trySeal z).calm = s.calm := by
  unfold State.trySeal
  split <;> simp

@[simp] theorem calm_tryRecover (z : ZoneNo) : (s.tryRecover z).calm = s.calm := by
  simp only [State.tryRecover]
  (repeat' split)
  · rw [calm_of_still (still_releaseStations _)]; simp (decide := true)
  · simp (decide := true)
  · rfl

@[simp] theorem calm_expireZone (z : ZoneNo) : (s.expireZone z).calm = s.calm := by
  unfold State.expireZone
  rw [calm_sealZone, calm_foldl _ fun s a => calm_of_still (still_catchShuttle s a)]

@[simp] theorem calm_releaseZone (z : ZoneNo) : (s.releaseZone z).calm = s.calm := by
  simp only [State.releaseZone]
  split
  · simp
  · rw [calm_foldl _ fun s a => calm_of_still (still_recoverShuttle s a), calm_setZoneState]

@[simp] theorem calm_enterAlarm (z : ZoneNo) : (s.enterAlarm z).calm = s.calm := by
  simp only [State.enterAlarm]
  split
  · unfold State.alarmHall
    rw [calm_foldl _ fun s a => calm_of_still (still_withdrawWaitingPort s a), calm_of_still (still_holdStations _)]
    simp (decide := true)
  · rw [calm_of_still (still_alarmAisles _ _)]; simp (decide := true)

@[simp] theorem still_settleWork : s.settleWork.still = s.still := by
  unfold State.settleWork; simp

@[simp] theorem calm_settleZones : s.settleZones.calm = s.calm := by
  unfold State.settleZones
  rw [calm_foldl _ fun s z => calm_tryRecover s z, calm_foldl _ fun s z => calm_trySeal s z]

/-- What the settling of a step leaves as it stands. -/
@[simp] theorem calm_settle : s.settle.calm = s.calm := by
  unfold State.settle
  rw [calm_of_still (still_tryAuditEnd _), calm_of_still (still_tryQuiet _), calm_of_still (still_parkIdle _),
    calm_of_still (still_settleWork _), calm_settleZones]

@[simp] theorem calm_grantNext : s.grantNext.calm = s.calm := by
  unfold State.grantNext
  split
  · exact calm_of_still (still_beginExchange _ _ _)
  · rfl

@[simp] theorem calm_grantLink : s.grantLink.calm = s.calm := by
  unfold State.grantLink
  (repeat' split)
  · simp [calm_of_still (still_dropStaleRevival _ _)]
  · exact calm_of_still (still_beginExchange _ _ _)
  · rfl

/-! ## The law of the CLR lines (R142) -/

theorem clearLaw_iff : s.clearLaw = true ↔ ∀ z, (s.zone z).clr = decide ((s.zone z).state = .sealed) := by
  simp only [State.clearLaw, State.zoneState, List.all_eq_true, beq_iff_eq]
  constructor
  · intro h z; exact h z (by fin_cases z <;> decide)
  · intro h z _; exact h z

variable {s}

theorem clearLaw_of_still {t : State} (h : t.still = s.still) (hs : s.clearLaw = true) : t.clearLaw = true := by
  have hz : t.fiu.zones = s.fiu.zones := congrArg Still.zones h
  simp only [clearLaw_iff, State.zone, hz] at hs ⊢
  exact hs

/-- A walk whose every step keeps the law keeps it. -/
theorem clearLaw_foldl {ι : Type} (f : State → ι → State)
    (h : ∀ s i, s.clearLaw = true → (f s i).clearLaw = true) :
    ∀ (l : List ι) (s : State), s.clearLaw = true → (l.foldl f s).clearLaw = true
  | [], _, hs => hs
  | i :: l, s, hs => clearLaw_foldl f h l (f s i) (h s i hs)

theorem clearLaw_setZoneState (z : ZoneNo) (st : ZoneState) (hs : s.clearLaw = true) :
    (s.setZoneState z st).clearLaw = true := by
  rw [clearLaw_iff] at hs ⊢
  intro w
  rw [zone_setZoneState]
  split
  · rfl
  · exact hs w

theorem clearLaw_sealZone (z : ZoneNo) (hs : s.clearLaw = true) : (s.sealZone z).clearLaw = true := by
  have h1 := clearLaw_of_still (still_latch (s.setZoneState z .sealed) .zoneSealed rfl) (clearLaw_setZoneState z .sealed hs)
  simp only [State.sealZone]
  split
  · exact clearLaw_of_still (still_strand _) h1
  · exact clearLaw_of_still (still_foldl _ (fun s a => still_sealShuttle s a) _ _) h1

theorem clearLaw_trySeal (z : ZoneNo) (hs : s.clearLaw = true) : (s.trySeal z).clearLaw = true := by
  unfold State.trySeal
  split
  · exact clearLaw_sealZone z hs
  · exact hs

theorem clearLaw_tryRecover (z : ZoneNo) (hs : s.clearLaw = true) : (s.tryRecover z).clearLaw = true := by
  have h1 := clearLaw_of_still (still_latch (s.setZoneState z .normal) .zoneRecovered rfl)
    (clearLaw_setZoneState z .normal hs)
  simp only [State.tryRecover]
  (repeat' split)
  · exact clearLaw_of_still (still_releaseStations _) h1
  · exact h1
  · exact hs

theorem clearLaw_settle (hs : s.clearLaw = true) : s.settle.clearLaw = true := by
  have h1 : s.settleZones.clearLaw = true :=
    clearLaw_foldl _ (fun _ z h => clearLaw_tryRecover z h) _ _ (clearLaw_foldl _ (fun _ z h => clearLaw_trySeal z h) _ _ hs)
  exact clearLaw_of_still (still_tryAuditEnd _) (clearLaw_of_still (still_tryQuiet _)
    (clearLaw_of_still (still_parkIdle _) (clearLaw_of_still (still_settleWork _) h1)))

theorem clearLaw_expireZone (z : ZoneNo) (hs : s.clearLaw = true) : (s.expireZone z).clearLaw = true :=
  clearLaw_sealZone z (clearLaw_of_still (still_foldl _ (fun s a => still_catchShuttle s a) _ _) hs)

theorem clearLaw_stopLane (hs : s.clearLaw = true) : s.stopLane.clearLaw = true := by
  have h : s.stopLane.fiu = s.fiu := by simp only [State.stopLane]; split <;> rfl
  rw [clearLaw_iff] at hs ⊢
  intro w
  rw [State.zone, h]
  exact hs w

theorem clearLaw_rerunLane (hs : s.clearLaw = true) : s.rerunLane.clearLaw = true := by
  have h : s.rerunLane.fiu = s.fiu := by simp only [State.rerunLane]; (repeat' split) <;> rfl
  rw [clearLaw_iff] at hs ⊢
  intro w
  rw [State.zone, h]
  exact hs w

theorem clearLaw_releaseZone (z : ZoneNo) (hs : s.clearLaw = true) : (s.releaseZone z).clearLaw = true := by
  have h1 := clearLaw_setZoneState z .recovery hs
  simp only [State.releaseZone]
  split
  · exact clearLaw_rerunLane h1
  · exact clearLaw_of_still (still_foldl _ (fun s a => still_recoverShuttle s a) _ _) h1

theorem clearLaw_enterAlarm (z : ZoneNo) (hs : s.clearLaw = true) : (s.enterAlarm z).clearLaw = true := by
  have h1 := clearLaw_of_still (still_latch (s.setZoneState z (.alarm s.tab.deadlines[z])) .zoneAlarm rfl)
    (clearLaw_setZoneState z _ hs)
  simp only [State.enterAlarm]
  split
  · unfold State.alarmHall
    exact clearLaw_of_still (still_foldl _ (fun s a => still_withdrawWaitingPort s a) _ _)
      (clearLaw_of_still (still_holdStations _) (clearLaw_stopLane h1))
  · exact clearLaw_of_still (still_alarmAisles _ _) h1

/-! ## The law of LSTOP (R97) -/

/-- What LSTOP is to be, by the state of zone 3. -/
def ZoneState.stops : ZoneState → Bool
  | .alarm _ => true
  | .sealed => true
  | _ => false

theorem stopLaw_iff : s.stopLaw = true ↔ s.lc.lstop = (s.zoneState frontHall).stops := by
  simp only [State.stopLaw, State.zoneAlarm, beq_iff_eq]
  cases h : s.zoneState frontHall <;> simp [ZoneState.stops]

theorem stopLaw_of_still {t : State} (h : t.still = s.still) (hs : s.stopLaw = true) : t.stopLaw = true := by
  have hz : t.fiu.zones = s.fiu.zones := congrArg Still.zones h
  have hl : t.lc.lstop = s.lc.lstop := congrArg Still.lstop h
  simp only [stopLaw_iff, State.zoneState, State.zone, hz, hl] at hs ⊢
  exact hs

/-- A walk whose every step keeps the law keeps it. -/
theorem stopLaw_foldl {ι : Type} (f : State → ι → State)
    (h : ∀ s i, s.stopLaw = true → (f s i).stopLaw = true) :
    ∀ (l : List ι) (s : State), s.stopLaw = true → (l.foldl f s).stopLaw = true
  | [], _, hs => hs
  | i :: l, s, hs => stopLaw_foldl f h l (f s i) (h s i hs)

/-- A write of a zone's state keeps the law if it agrees with LSTOP where the zone is zone 3. -/
theorem stopLaw_setZoneState (z : ZoneNo) (st : ZoneState) (hs : s.stopLaw = true)
    (h : z = frontHall → s.lc.lstop = st.stops) : (s.setZoneState z st).stopLaw = true := by
  rw [stopLaw_iff] at hs ⊢
  simp only [State.zoneState, zone_setZoneState, State.setZoneState_lc] at hs ⊢
  split
  · rename_i e; exact h e
  · exact hs

theorem stopLaw_sealZone (z : ZoneNo) (hs : s.stopLaw = true) (ha : s.zoneAlarm z = true) :
    (s.sealZone z).stopLaw = true := by
  have h1 : (s.setZoneState z .sealed).stopLaw = true := by
    refine stopLaw_setZoneState z _ hs fun e => ?_
    subst e
    rw [stopLaw_iff] at hs
    rw [hs]
    simp only [State.zoneAlarm] at ha
    split at ha
    · rename_i e; rw [e]; rfl
    · exact absurd ha (by decide)
  have h2 := stopLaw_of_still (still_latch (s.setZoneState z .sealed) .zoneSealed rfl) h1
  simp only [State.sealZone]
  split
  · exact stopLaw_of_still (still_strand _) h2
  · exact stopLaw_of_still (still_foldl _ (fun s a => still_sealShuttle s a) _ _) h2

theorem stopLaw_trySeal (z : ZoneNo) (hs : s.stopLaw = true) : (s.trySeal z).stopLaw = true := by
  unfold State.trySeal
  split
  · rename_i h
    simp only [Bool.and_eq_true] at h
    exact stopLaw_sealZone z hs h.1
  · exact hs

theorem stopLaw_tryRecover (z : ZoneNo) (hs : s.stopLaw = true) : (s.tryRecover z).stopLaw = true := by
  simp only [State.tryRecover]
  split
  · rename_i h
    simp only [Bool.and_eq_true, decide_eq_true_eq] at h
    have h1 : (s.setZoneState z .normal).stopLaw = true := by
      refine stopLaw_setZoneState z _ hs fun e => ?_
      subst e
      rw [stopLaw_iff] at hs
      rw [hs, h.1]
      rfl
    have h2 := stopLaw_of_still (still_latch (s.setZoneState z .normal) .zoneRecovered rfl) h1
    split
    · exact stopLaw_of_still (still_releaseStations _) h2
    · exact h2
  · exact hs

theorem stopLaw_settle (hs : s.stopLaw = true) : s.settle.stopLaw = true := by
  have h1 : s.settleZones.stopLaw = true :=
    stopLaw_foldl _ (fun _ z h => stopLaw_tryRecover z h) _ _ (stopLaw_foldl _ (fun _ z h => stopLaw_trySeal z h) _ _ hs)
  exact stopLaw_of_still (still_tryAuditEnd _) (stopLaw_of_still (still_tryQuiet _)
    (stopLaw_of_still (still_parkIdle _) (stopLaw_of_still (still_settleWork _) h1)))

theorem stopLaw_expireZone (z : ZoneNo) (hs : s.stopLaw = true) (ha : s.zoneAlarm z = true) :
    (s.expireZone z).stopLaw = true := by
  have h := still_foldl _ (fun s a => still_catchShuttle s a) (shuttlesOf z) s
  refine stopLaw_sealZone z (stopLaw_of_still h hs) ?_
  have hz : ((shuttlesOf z).foldl (fun s a => s.catchShuttle a) s).fiu.zones = s.fiu.zones := congrArg Still.zones h
  simp only [State.zoneAlarm, State.zoneState, State.zone, hz] at ha ⊢
  exact ha

theorem stopLaw_releaseZone (z : ZoneNo) (hs : s.stopLaw = true) : (s.releaseZone z).stopLaw = true := by
  simp only [State.releaseZone]
  split
  · rename_i e
    subst e
    have hf : (s.setZoneState frontHall .recovery).rerunLane.fiu = (s.setZoneState frontHall .recovery).fiu := by
      simp only [State.rerunLane]; (repeat' split) <;> rfl
    have hl : (s.setZoneState frontHall .recovery).rerunLane.lc.lstop = false := by
      simp only [State.rerunLane]; (repeat' split) <;> rfl
    rw [stopLaw_iff, hl, State.zoneState, State.zone, hf]
    have := zone_setZoneState s frontHall frontHall .recovery
    simp only [State.zone, if_true] at this
    rw [this]
    rfl
  · rename_i e
    exact stopLaw_of_still (still_foldl _ (fun s a => still_recoverShuttle s a) _ _)
      (stopLaw_setZoneState z _ hs fun h => absurd h e)

theorem stopLaw_enterAlarm (z : ZoneNo) (hs : s.stopLaw = true) : (s.enterAlarm z).stopLaw = true := by
  simp only [State.enterAlarm]
  split
  · rename_i e
    subst e
    unfold State.alarmHall
    refine stopLaw_of_still (still_foldl _ (fun s a => still_withdrawWaitingPort s a) _ _)
      (stopLaw_of_still (still_holdStations _) ?_)
    generalize hu : (s.setZoneState frontHall (.alarm s.tab.deadlines[frontHall])).latch .zoneAlarm = u
    have hz : u.zoneState frontHall = .alarm s.tab.deadlines[frontHall] := by
      subst hu
      have := zone_setZoneState s frontHall frontHall (.alarm s.tab.deadlines[frontHall])
      simp only [if_true] at this
      exact congrArg Zone.state this
    have hf : u.stopLane.fiu = u.fiu := by simp only [State.stopLane]; split <;> rfl
    have hl : u.stopLane.lc.lstop = true := by simp only [State.stopLane]; split <;> rfl
    rw [stopLaw_iff, hl, State.zoneState, State.zone, hf]
    simp only [State.zoneState, State.zone] at hz
    rw [hz]
    rfl
  · rename_i e
    refine stopLaw_of_still (still_alarmAisles _ _) (stopLaw_of_still (still_latch _ _ rfl) ?_)
    exact stopLaw_setZoneState z _ hs fun h => absurd h e

end Sys2Proof.Machine
end

