-- ==== Sys2Proof/Laws/Window.lean ====
section
/-! SUPPORT. How a request is taken and ends, and what its ending keeps. -/

namespace Sys2Proof.Machine

variable {s : State}

theorem windowFree_iff : s.windowFree = true ↔ s.win.busy = false ∧ s.phase = .running := by
  simp [State.windowFree]

/-! ## Taking a request (R163 to R165) -/

theorem takeRequest_free (h : s.windowFree = true) (code : Word) (e : Evaluation) :
    s.takeRequest code e = (e s.operands (s.storeRequest code)).finish s.operands (s.storeRequest code) := by
  simp only [State.takeRequest, h, if_true]

/-- A request written while BUSY is set or during start-up collides (R164, R169). -/
theorem takeRequest_busy (h : s.windowFree = false) (code : Word) (e : Evaluation) : s.takeRequest code e = s.collide := by
  simp [State.takeRequest, h]

theorem takeRequest_refused {code : Word} {e : Evaluation} {c : Code} (h : s.windowFree = true)
    (he : e s.operands (s.storeRequest code) = .refuse c) :
    s.takeRequest code e = (s.storeRequest code).endRequest c {} := by
  rw [takeRequest_free h, he]; rfl

theorem takeRequest_answered {code : Word} {e : Evaluation} {c : Code} {a : Answer} {t : State} (h : s.windowFree = true)
    (he : e s.operands (s.storeRequest code) = .answer c a t) : s.takeRequest code e = t.endRequest c a := by
  rw [takeRequest_free h, he]; rfl

theorem takeRequest_waits {code : Word} {e : Evaluation} {k : WaitKind} {t : State} (h : s.windowFree = true)
    (he : e s.operands (s.storeRequest code) = .wait k t) :
    s.takeRequest code e = { t with win.waiting := some { kind := k, operands := s.operands } } := by
  rw [takeRequest_free h, he]; rfl

/-! ## What a request keeps -/

/-- What the state a request leaves satisfies, before the request ends. -/
def Reply.All (P : State → Prop) : Reply → Prop
  | .refuse _ => True
  | .answer _ _ t => P t
  | .wait _ t => P t

/-- A property that only the window's own fields cannot break holds after a request whose evaluation keeps it. -/
theorem takeRequest_all {P : State → Prop} {code : Word} {e : Evaluation}
    (hend : ∀ c a t, P t → P (t.endRequest c a))
    (hwait : ∀ w t, P t → P { t with win.waiting := w })
    (hstore : P s → P (s.storeRequest code)) (hcollide : P s → P s.collide)
    (heval : P (s.storeRequest code) → (e s.operands (s.storeRequest code)).All P) (hs : P s) :
    P (s.takeRequest code e) := by
  cases h : s.windowFree with
  | false => rw [takeRequest_busy h]; exact hcollide hs
  | true =>
    rw [takeRequest_free h]
    have := heval (hstore hs)
    cases he : e s.operands (s.storeRequest code) with
    | refuse c => exact hend _ _ _ (hstore hs)
    | answer c a t => rw [he] at this; exact hend _ _ _ this
    | wait k t => rw [he] at this; exact hwait _ _ this

/-- The laws of the fire panel's lines and of the latches, which hold or fail by the zones, LSTOP and the latches. -/
def State.lineLaws (s : State) : Prop := s.clearLaw = true ∧ s.stopLaw = true ∧ s.still.stray = 0

theorem lineLaws_of_still {t : State} (h : t.still = s.still) (hs : s.lineLaws) : t.lineLaws :=
  ⟨clearLaw_of_still h hs.1, stopLaw_of_still h hs.2.1, h ▸ hs.2.2⟩

theorem latchLaw_iff : s.latchLaw = true ↔ s.still.stray = 0 := by
  simp [State.latchLaw, State.still]

theorem lineLaws_settle (hs : s.lineLaws) : s.settle.lineLaws :=
  ⟨clearLaw_settle hs.1, stopLaw_settle hs.2.1, (stray_of_calm (calm_settle s)).trans hs.2.2⟩

theorem lineLaws_enterAlarm (z : ZoneNo) (hs : s.lineLaws) : (s.enterAlarm z).lineLaws :=
  ⟨clearLaw_enterAlarm z hs.1, stopLaw_enterAlarm z hs.2.1, (stray_of_calm (calm_enterAlarm s z)).trans hs.2.2⟩

theorem lineLaws_expireZone (z : ZoneNo) (ha : s.zoneAlarm z = true) (hs : s.lineLaws) : (s.expireZone z).lineLaws :=
  ⟨clearLaw_expireZone z hs.1, stopLaw_expireZone z hs.2.1 ha, (stray_of_calm (calm_expireZone s z)).trans hs.2.2⟩

theorem lineLaws_releaseZone (z : ZoneNo) (hs : s.lineLaws) : (s.releaseZone z).lineLaws :=
  ⟨clearLaw_releaseZone z hs.1, stopLaw_releaseZone z hs.2.1, (stray_of_calm (calm_releaseZone s z)).trans hs.2.2⟩

/-- A request keeps the laws of the lines when its evaluation does. -/
theorem lineLaws_takeRequest {code : Word} {e : Evaluation}
    (heval : (s.storeRequest code).lineLaws → (e s.operands (s.storeRequest code)).All State.lineLaws) (hs : s.lineLaws) :
    (s.takeRequest code e).lineLaws :=
  takeRequest_all (P := State.lineLaws) (fun _ _ _ h => h) (fun _ _ h => h) (fun h => h) (fun h => h) heval hs

/-! ## The memory -/

theorem tableMap_length {α : Type} (f : α → α) : ∀ t : Table α, (tableMap f t).length = t.length
  | [] => rfl
  | (_, _) :: t => by simp only [tableMap, List.length_cons, tableMap_length f t]

/-- The canonical form of the tables is a matter of the kept part. -/
theorem memoryWhole_of_kept {t : State} (h : t.still.kept = s.still.kept) (hs : s.memoryWhole = true) :
    t.memoryWhole = true := by
  have hb : tableMap BinRec.facts t.tab.bins = tableMap BinRec.facts s.tab.bins := congrArg Kept.binFacts h
  have hi : t.tab.items = s.tab.items := congrArg Kept.items h
  have hp : t.tab.patrons = s.tab.patrons := congrArg Kept.patrons h
  have hu : t.pendingUpdate = s.pendingUpdate := congrArg Kept.pendingUpdate h
  have h1 : tableSorted t.tab.bins = tableSorted s.tab.bins := by
    rw [← tableMap_sorted BinRec.facts t.tab.bins, hb, tableMap_sorted]
  have h2 : tableKeysIn 0 2047 t.tab.bins = tableKeysIn 0 2047 s.tab.bins := by
    rw [← tableMap_keysIn 0 2047 BinRec.facts t.tab.bins, hb, tableMap_keysIn]
  simp only [State.memoryWhole, Tables.wf, h1, h2, hi, hp, hu] at hs ⊢
  exact hs

theorem memoryWhole_settle (hs : s.memoryWhole = true) : s.settle.memoryWhole = true :=
  memoryWhole_of_kept (kept_of_calm (calm_settle s)) hs

/-- A request keeps the memory whole when its evaluation does. -/
theorem memoryWhole_takeRequest {code : Word} {e : Evaluation}
    (heval : (s.storeRequest code).memoryWhole = true →
      (e s.operands (s.storeRequest code)).All fun t => t.memoryWhole = true)
    (hs : s.memoryWhole = true) : (s.takeRequest code e).memoryWhole = true :=
  takeRequest_all (P := fun t => t.memoryWhole = true) (fun _ _ _ h => h) (fun _ _ h => h) (fun h => h) (fun h => h) heval hs

end Sys2Proof.Machine
end

