-- ==== Sys2Proof/Laws/Requests.lean ====
section
/-! SUPPORT. What the requests' own operations leave of the zones, of LSTOP and of the latches, and that every request keeps the
laws of the fire panel's lines and of the latches. -/

namespace Sys2Proof.Machine

set_option linter.unusedTactic false
set_option linter.unreachableTactic false
set_option linter.unnecessarySeqFocus false

variable (s : State)

/-- What the laws of the lines and of the latches speak of. -/
def State.lineRow (s : State) : Vector Zone 4 × Bool × BitVec 11 :=
  (s.fiu.zones, s.lc.lstop, s.au.latches &&& ~~~eventMask)

/-! ## Operations that keep it -/

theorem lineRow_of_still {s t : State} (h : t.still = s.still) : t.lineRow = s.lineRow := by
  have h1 : t.fiu.zones = s.fiu.zones := congrArg Still.zones h
  have h2 : t.lc.lstop = s.lc.lstop := congrArg Still.lstop h
  have h3 : t.au.latches &&& ~~~eventMask = s.au.latches &&& ~~~eventMask := congrArg Still.stray h
  simp only [State.lineRow, h1, h2, h3]

@[simp] theorem lineRow_eraseItem (t : Tag) : (s.eraseItem t).lineRow = s.lineRow := rfl
@[simp] theorem lineRow_removeLoan (n : PatronNo) (t : Tag) : (s.removeLoan n t).lineRow = s.lineRow := rfl
@[simp] theorem lineRow_countOut (b : BinNo) : (s.countOut b).lineRow = s.lineRow := rfl

@[simp] theorem lineRow_dropHolds : ∀ (ns : List PatronNo) (s : State), (State.dropHolds ns s).lineRow = s.lineRow
  | [], _ => rfl
  | n :: rest, s => (lineRow_dropHolds rest (s.holdCountDown n)).trans rfl

@[simp] theorem lineRow_retireFrom (t : Tag) (st : ItemState) : (s.retireFrom t st).lineRow = s.lineRow := by
  cases st <;> rfl

@[simp] theorem lineRow_recall (t : Tag) (st : ItemState) : (s.recall t st).lineRow = s.lineRow := by
  unfold State.recall
  (repeat' split) <;> rfl

@[simp] theorem lineRow_chargeItem (t : Tag) (i : Item) (b : BinNo) (n : PatronNo) (due : Nat) :
    (s.chargeItem t i b n due).lineRow = s.lineRow := by
  simp only [State.chargeItem]
  split <;> rfl

@[simp] theorem lineRow_loseItem (t : Tag) (i : Item) : (s.loseItem t i).lineRow = s.lineRow :=
  Eq.trans (b := (State.dropHolds i.holds s).lineRow) rfl (by simp)

@[simp] theorem lineRow_addHold (t : Tag) (i : Item) (n : PatronNo) : (s.addHold t i n).lineRow = s.lineRow := by
  simp only [State.addHold, lineRow_recall]
  rfl

@[simp] theorem lineRow_endFormer (t : Tag) (st : ItemState) : (s.endFormer t st).lineRow = s.lineRow := by
  cases st <;> rfl

@[simp] theorem lineRow_placeReturned (p : Position) (b : BinNo) (t : Tag) (holds : List PatronNo) :
    (s.placeReturned p b t holds).lineRow = s.lineRow := by
  simp only [State.placeReturned]
  (repeat' split) <;> rfl

@[simp] theorem lineRow_dropItem (t : Tag) (i : Item) : (s.dropItem t i).lineRow = s.lineRow := by
  simp only [State.dropItem, State.reportDrop]
  split
  · exact (lineRow_of_still (still_wakeByNeed _)).trans rfl
  · rfl

@[simp] theorem still_closeStation (n : StationNo) : (s.closeStation n).still = s.still := by
  simp only [State.closeStation]
  split <;> simp

@[simp] theorem still_dismiss (e : OrderNo) (b : BinNo) (rest : List BinNo) (pr : Fin 4) (k : PickNo) :
    (s.dismiss e b rest pr k).still = s.still := by
  simp only [State.dismiss]
  split <;> simp (decide := true)

/-! ## The offer of a freed entry (R61) -/

@[simp] theorem still_makeAuditProbe (e : OrderNo) (b : BinNo) : (s.makeAuditProbe e b).still = s.still :=
  still_placeOrder s e (plainOrder .probe .audit b (s.homeAisle b) 0 .queued none)

@[simp] theorem still_passAudit (b : BinNo) : (s.passAudit b).still = s.still := rfl

@[simp] theorem still_offer (e : OrderNo) (c : Claim) : (s.offer e c).2.still = s.still := by
  unfold State.offer
  split
  · simp
  · simp only [State.offerDismissal]; (repeat' split) <;> simp
  · simp only [State.offerFetch]; (repeat' split) <;> simp
  · simp only [State.offerAudit]; (repeat' split) <;> first | (simp; done) | rfl

@[simp] theorem still_offerAll (e : OrderNo) : ∀ (l : List Claim) (s : State), (s.offerAll e l).still = s.still
  | [], _ => rfl
  | c :: rest, s => by
    have h := still_offer s e c
    unfold State.offerAll
    split
    · rename_i t heq; rw [heq] at h; exact h
    · rename_i t heq; rw [heq] at h; rw [still_offerAll e rest t]; exact h

@[simp] theorem still_freeAndOffer (e : OrderNo) : (s.freeAndOffer e).still = s.still := by
  simp only [State.freeAndOffer, still_offerAll]
  rfl

@[simp] theorem still_cancelQueued (n : OrderNo) (r : Order) : (s.cancelQueued n r).still = s.still := by
  simp [State.cancelQueued]

/-! ## Every request keeps the laws -/

variable {s}

/-- The laws hold of a state with the same zones, LSTOP and latches. -/
theorem lineLaws_congr {t : State} (h : t.lineRow = s.lineRow) (hs : s.lineLaws) : t.lineLaws := by
  simp only [State.lineRow, Prod.mk.injEq] at h
  obtain ⟨hz, hl, ha⟩ := h
  obtain ⟨h1, h2, h3⟩ := hs
  refine ⟨?_, ?_, ?_⟩
  · simp only [clearLaw_iff, State.zone, hz] at h1 ⊢; exact h1
  · simp only [stopLaw_iff, State.zoneState, State.zone, hz, hl] at h2 ⊢; exact h2
  · simp only [State.still, ha] at h3 ⊢; exact h3

/-- The soft reset keeps the zones and LSTOP and clears the latches (R168, R98, R160). -/
theorem lineLaws_softResetBlocks (hs : s.lineLaws) : s.softResetBlocks.lineLaws := by
  obtain ⟨h1, h2, _⟩ := hs
  refine ⟨?_, ?_, show (0 : BitVec 11) &&& ~~~eventMask = 0 by decide⟩
  · rw [clearLaw_iff] at h1 ⊢; exact h1
  · rw [stopLaw_iff] at h2 ⊢; exact h2


/-- Every request keeps the laws of the lines and of the latches. -/
theorem lineLaws_evaluation {code : Nat} {e : Evaluation} (he : evaluationOf? code = some e) (o : Operands)
    (h : s.lineLaws) : (e o s).All State.lineLaws := by
  unfold evaluationOf? at he
  split at he
  case h_54 => cases he; exact lineLaws_settle (lineLaws_softResetBlocks h)
  all_goals cases he
  all_goals
    simp only [enrolBin, retireBin, setPlace, readBin, defineSegment, readSegment, readChanged, clearChanged, setDay,
    setCategory, readCategory, enrolItem, retireItem, readItem, enrolPatron, retirePatron, setPatronBlock,
    readPatron, readLoans, fetch, collect, readOrder, cancelOrder, resumeOrder, audit, cancelAudit, auditBin, auditBinUnder,
    quiesce, wake, readShuttle, reviveShuttle, openStation, closeStation, setStation, dismiss, reclaimPlace,
    readStation, readLane, pick, putBack, charge, chargeUnder, renew, declareLost, placeHold, cancelHold, returnItem,
    placeDropped, closePosition, readDropList, setDeadline, readZone, readFault, clearFault, atContext,
    onPatron, onOrder, onShuttle, handlingAt, recordAt, State.cancelRunning, dismissPresented, reclaimOut,
    reclaimStow, renewLoan, returnAccepted, placeAccepted]
    (repeat' split) <;> simp only [Reply.All] <;> first
      | (with_reducible refine lineLaws_settle ?_
         first
         | exact lineLaws_of_still (by simp (decide := true)) h
         | (refine lineLaws_congr ?_ h; simp; done)
         | (refine lineLaws_congr ?_ h; simp; rfl)
         | exact lineLaws_congr rfl h)
      | with_reducible exact h
      | (refine lineLaws_congr ?_ h; simp; done)
      | (refine lineLaws_congr ?_ h; simp; rfl)
      | exact lineLaws_congr rfl h
      | exact lineLaws_of_still (by simp (decide := true)) h

end Sys2Proof.Machine
end

