-- ==== Sys2Proof/Laws/Memory.lean ====
section
/-! SUPPORT. Every operation on the retained memory keeps it whole: the tables stay in canonical form, within their key ranges
and their capacities, and the pending-update record stays clear. -/

namespace Sys2Proof.Machine

variable {s : State}

theorem memoryWhole_iff :
    s.memoryWhole = true ↔
      (tableSorted s.tab.bins = true ∧ tableKeysIn 0 2047 s.tab.bins = true)
        ∧ (tableSorted s.tab.items = true ∧ tableKeysIn 1 Config.maxTag s.tab.items = true
            ∧ s.tab.items.length ≤ Config.itemCapacity)
        ∧ (tableSorted s.tab.patrons = true ∧ tableKeysIn 1 Config.maxPatron s.tab.patrons = true
            ∧ s.tab.patrons.length ≤ Config.patronCapacity)
        ∧ s.pendingUpdate = none := by
  simp only [State.memoryWhole, Tables.wf, Bool.and_eq_true, decide_eq_true_eq, Option.isNone_iff_eq_none]
  tauto

/-- The memory is whole with the same three tables and the same pending-update record. -/
theorem memoryWhole_congr {t : State} (hb : t.tab.bins = s.tab.bins) (hi : t.tab.items = s.tab.items)
    (hp : t.tab.patrons = s.tab.patrons) (hu : t.pendingUpdate = s.pendingUpdate) (hs : s.memoryWhole = true) :
    t.memoryWhole = true := by
  rw [memoryWhole_iff] at hs ⊢
  rw [hb, hi, hp, hu]
  exact hs

/-! ## Bins -/

theorem memoryWhole_putBin (b : BinNo) (r : BinRec) (hs : s.memoryWhole = true) : (s.putBin b r).memoryWhole = true := by
  rw [memoryWhole_iff] at hs ⊢
  obtain ⟨⟨h1, h2⟩, h3⟩ := hs
  exact ⟨⟨tableInsert_sorted _ _ h1, tableInsert_keysIn _ (Nat.zero_le _) (by omega) h2⟩, h3⟩

theorem memoryWhole_eraseBin (b : BinNo) (hs : s.memoryWhole = true) : (s.eraseBin b).memoryWhole = true := by
  rw [memoryWhole_iff] at hs ⊢
  obtain ⟨⟨h1, h2⟩, h3⟩ := hs
  exact ⟨⟨tableErase_sorted _ h1, tableErase_keysIn h2⟩, h3⟩

theorem memoryWhole_changeBin (b : BinNo) (f : BinRec → BinRec) (hs : s.memoryWhole = true) :
    (s.changeBin b f).memoryWhole = true := by
  rw [memoryWhole_iff] at hs ⊢
  simp only [State.changeBin_tab_bins, tableUpdate_sorted, tableUpdate_keysIn]
  exact hs

theorem memoryWhole_countIn (b : BinNo) (hs : s.memoryWhole = true) : (s.countIn b).memoryWhole = true :=
  memoryWhole_congr rfl rfl rfl rfl
    (memoryWhole_changeBin b (fun r => { r with itemCount := r.itemCount + 1 }) hs)

theorem memoryWhole_countOut (b : BinNo) (hs : s.memoryWhole = true) : (s.countOut b).memoryWhole = true :=
  memoryWhole_congr rfl rfl rfl rfl
    (memoryWhole_changeBin b (fun r => { r with itemCount := r.itemCount - 1 }) hs)

theorem memoryWhole_resetBins (lost : Place → Bool) (hs : s.memoryWhole = true) :
    (s.resetBins lost).memoryWhole = true := by
  rw [memoryWhole_iff] at hs ⊢
  simp only [State.resetBins, tableMap_sorted, tableMap_keysIn]
  exact hs

/-! ## Items -/

theorem memoryWhole_putItem_old {t : Tag} {j : Item} (i : Item) (hf : s.item? t = some j) (hs : s.memoryWhole = true) :
    (s.putItem t i).memoryWhole = true := by
  rw [memoryWhole_iff] at hs ⊢
  obtain ⟨hb, ⟨h1, h2, h3⟩, hp⟩ := hs
  have hsome : (tableFind t s.tab.items).isSome = true := by rw [show tableFind t s.tab.items = some j from hf]; rfl
  obtain ⟨hlo, hhi⟩ := tableKeysIn_of_find h2 hsome
  exact ⟨hb, ⟨tableInsert_sorted _ _ h1, tableInsert_keysIn _ hlo hhi h2,
    (tableInsert_length_old t i h1 hsome).trans_le h3⟩, hp⟩

theorem memoryWhole_putItem_new {t : Tag} (i : Item) (ht : validTag t = true) (hf : s.item? t = none)
    (hc : s.tab.items.length < Config.itemCapacity) (hs : s.memoryWhole = true) : (s.putItem t i).memoryWhole = true := by
  rw [memoryWhole_iff] at hs ⊢
  obtain ⟨hb, ⟨h1, h2, h3⟩, hp⟩ := hs
  simp only [validTag, Bool.and_eq_true, decide_eq_true_eq] at ht
  exact ⟨hb, ⟨tableInsert_sorted _ _ h1, tableInsert_keysIn _ ht.1 ht.2 h2,
    (tableInsert_length_new t i hf).trans_le (Nat.succ_le_of_lt hc)⟩, hp⟩

theorem memoryWhole_eraseItem (t : Tag) (hs : s.memoryWhole = true) : (s.eraseItem t).memoryWhole = true := by
  rw [memoryWhole_iff] at hs ⊢
  obtain ⟨hb, ⟨h1, h2, h3⟩, hp⟩ := hs
  exact ⟨hb, ⟨tableErase_sorted _ h1, tableErase_keysIn h2, (tableErase_length_le _ _).trans h3⟩, hp⟩

/-! ## Patrons -/

theorem memoryWhole_changePatron (n : PatronNo) (f : Patron → Patron) (hs : s.memoryWhole = true) :
    (s.changePatron n f).memoryWhole = true := by
  rw [memoryWhole_iff] at hs ⊢
  simp only [State.changePatron_tab_patrons, tableUpdate_sorted, tableUpdate_keysIn, tableUpdate_length]
  exact hs

theorem memoryWhole_putPatron_old {n : PatronNo} {q : Patron} (p : Patron) (hf : s.patron? n = some q)
    (hs : s.memoryWhole = true) : (s.putPatron n p).memoryWhole = true := by
  rw [memoryWhole_iff] at hs ⊢
  obtain ⟨hb, hi, ⟨h1, h2, h3⟩, hu⟩ := hs
  have hsome : (tableFind n s.tab.patrons).isSome = true := by rw [show tableFind n s.tab.patrons = some q from hf]; rfl
  obtain ⟨hlo, hhi⟩ := tableKeysIn_of_find h2 hsome
  exact ⟨hb, hi, ⟨tableInsert_sorted _ _ h1, tableInsert_keysIn _ hlo hhi h2,
    (tableInsert_length_old n p h1 hsome).trans_le h3⟩, hu⟩

theorem memoryWhole_putPatron_new {n : PatronNo} (p : Patron) (hn : validPatron n = true) (hf : s.patron? n = none)
    (hc : s.tab.patrons.length < Config.patronCapacity) (hs : s.memoryWhole = true) :
    (s.putPatron n p).memoryWhole = true := by
  rw [memoryWhole_iff] at hs ⊢
  obtain ⟨hb, hi, ⟨h1, h2, h3⟩, hu⟩ := hs
  simp only [validPatron, Bool.and_eq_true, decide_eq_true_eq] at hn
  exact ⟨hb, hi, ⟨tableInsert_sorted _ _ h1, tableInsert_keysIn _ hn.1 hn.2 h2,
    (tableInsert_length_new n p hf).trans_le (Nat.succ_le_of_lt hc)⟩, hu⟩

theorem memoryWhole_erasePatron (n : PatronNo) (hs : s.memoryWhole = true) : (s.erasePatron n).memoryWhole = true := by
  rw [memoryWhole_iff] at hs ⊢
  obtain ⟨hb, hi, ⟨h1, h2, h3⟩, hu⟩ := hs
  exact ⟨hb, hi, ⟨tableErase_sorted _ h1, tableErase_keysIn h2, (tableErase_length_le _ _).trans h3⟩, hu⟩

theorem memoryWhole_dropHolds : ∀ (ns : List PatronNo) {s : State}, s.memoryWhole = true →
    (State.dropHolds ns s).memoryWhole = true
  | [], _, hs => hs
  | n :: rest, _, hs => memoryWhole_dropHolds rest (memoryWhole_changePatron n _ hs)

/-- The item table is left by lowering hold counts. -/
@[simp] theorem item?_dropHolds (t : Tag) : ∀ (ns : List PatronNo) (s : State), (State.dropHolds ns s).item? t = s.item? t
  | [], _ => rfl
  | n :: rest, s => (item?_dropHolds t rest (s.holdCountDown n)).trans rfl

/-- The formatted tables are whole (R21). -/
theorem formattedTables_wf : formattedTables.wf = true := rfl

end Sys2Proof.Machine
end

