-- ==== Sys2Proof/Laws/PerInstr.lean ====
section
/-! SUPPORT. One lemma per command: no word of the table's bits spells it, since the table gives no row any bits. -/

namespace Sys2Proof.Laws.Unspelled

/-- No word spells a command. -/
def Statement (i : Instr) : Prop := ∀ nbits w : Nat, decodeTableWord nbits w ≠ some i

theorem enrolBin : Statement .enrolBin := fun _ _ h => nomatch h
theorem retireBin : Statement .retireBin := fun _ _ h => nomatch h
theorem setPlace : Statement .setPlace := fun _ _ h => nomatch h
theorem readBin : Statement .readBin := fun _ _ h => nomatch h
theorem defineSegment : Statement .defineSegment := fun _ _ h => nomatch h
theorem readSegment : Statement .readSegment := fun _ _ h => nomatch h
theorem readChanged : Statement .readChanged := fun _ _ h => nomatch h
theorem clearChanged : Statement .clearChanged := fun _ _ h => nomatch h
theorem setDay : Statement .setDay := fun _ _ h => nomatch h
theorem setCategory : Statement .setCategory := fun _ _ h => nomatch h
theorem readCategory : Statement .readCategory := fun _ _ h => nomatch h
theorem enrolItem : Statement .enrolItem := fun _ _ h => nomatch h
theorem retireItem : Statement .retireItem := fun _ _ h => nomatch h
theorem readItem : Statement .readItem := fun _ _ h => nomatch h
theorem enrolPatron : Statement .enrolPatron := fun _ _ h => nomatch h
theorem retirePatron : Statement .retirePatron := fun _ _ h => nomatch h
theorem setPatronBlock : Statement .setPatronBlock := fun _ _ h => nomatch h
theorem readPatron : Statement .readPatron := fun _ _ h => nomatch h
theorem readLoans : Statement .readLoans := fun _ _ h => nomatch h
theorem fetch : Statement .fetch := fun _ _ h => nomatch h
theorem collect : Statement .collect := fun _ _ h => nomatch h
theorem readOrder : Statement .readOrder := fun _ _ h => nomatch h
theorem cancelOrder : Statement .cancelOrder := fun _ _ h => nomatch h
theorem resumeOrder : Statement .resumeOrder := fun _ _ h => nomatch h
theorem audit : Statement .audit := fun _ _ h => nomatch h
theorem cancelAudit : Statement .cancelAudit := fun _ _ h => nomatch h
theorem auditBin : Statement .auditBin := fun _ _ h => nomatch h
theorem quiesce : Statement .quiesce := fun _ _ h => nomatch h
theorem wake : Statement .wake := fun _ _ h => nomatch h
theorem readShuttle : Statement .readShuttle := fun _ _ h => nomatch h
theorem reviveShuttle : Statement .reviveShuttle := fun _ _ h => nomatch h
theorem openStation : Statement .openStation := fun _ _ h => nomatch h
theorem closeStation : Statement .closeStation := fun _ _ h => nomatch h
theorem setStation : Statement .setStation := fun _ _ h => nomatch h
theorem dismiss : Statement .dismiss := fun _ _ h => nomatch h
theorem reclaimPlace : Statement .reclaimPlace := fun _ _ h => nomatch h
theorem readStation : Statement .readStation := fun _ _ h => nomatch h
theorem readLane : Statement .readLane := fun _ _ h => nomatch h
theorem pick : Statement .pick := fun _ _ h => nomatch h
theorem putBack : Statement .putBack := fun _ _ h => nomatch h
theorem charge : Statement .charge := fun _ _ h => nomatch h
theorem renew : Statement .renew := fun _ _ h => nomatch h
theorem declareLost : Statement .declareLost := fun _ _ h => nomatch h
theorem placeHold : Statement .placeHold := fun _ _ h => nomatch h
theorem cancelHold : Statement .cancelHold := fun _ _ h => nomatch h
theorem returnItem : Statement .returnItem := fun _ _ h => nomatch h
theorem placeDropped : Statement .placeDropped := fun _ _ h => nomatch h
theorem closePosition : Statement .closePosition := fun _ _ h => nomatch h
theorem readDropList : Statement .readDropList := fun _ _ h => nomatch h
theorem setDeadline : Statement .setDeadline := fun _ _ h => nomatch h
theorem readZone : Statement .readZone := fun _ _ h => nomatch h
theorem readFault : Statement .readFault := fun _ _ h => nomatch h
theorem clearFault : Statement .clearFault := fun _ _ h => nomatch h
theorem resetController : Statement .resetController := fun _ _ h => nomatch h
theorem undefinedRequest (value : Word) : Statement (.undefinedRequest value) := fun _ _ h => nomatch h
theorem requestCollision (value : Word) : Statement (.requestCollision value) := fun _ _ h => nomatch h
theorem releaseWrite (value : Word) : Statement (.releaseWrite value) := fun _ _ h => nomatch h
theorem causeWrite (value : Word) : Statement (.causeWrite value) := fun _ _ h => nomatch h
theorem enableWrite (value : Word) : Statement (.enableWrite value) := fun _ _ h => nomatch h
theorem levelsWrite (value : Word) : Statement (.levelsWrite value) := fun _ _ h => nomatch h
theorem stateRead : Statement .stateRead := fun _ _ h => nomatch h
theorem windowCellWrite (cell : BitVec 5) (value : Word) : Statement (.windowCellWrite cell value) := fun _ _ h => nomatch h
theorem resetAsserted (memory : MemoryFate) : Statement (.resetAsserted memory) := fun _ _ h => nomatch h
theorem startUp : Statement .startUp := fun _ _ h => nomatch h
theorem alarmLineChange (zone : Fin 4) (active : Bool) : Statement (.alarmLineChange zone active) := fun _ _ h => nomatch h
theorem zoneDeadlineExpiry (zone : Fin 4) : Statement (.zoneDeadlineExpiry zone) := fun _ _ h => nomatch h
theorem revivalRetryDue (shuttle : Fin 6) : Statement (.revivalRetryDue shuttle) := fun _ _ h => nomatch h
theorem offlinePollDue (shuttle : Fin 6) : Statement (.offlinePollDue shuttle) := fun _ _ h => nomatch h
theorem linkGrant : Statement .linkGrant := fun _ _ h => nomatch h
theorem answerReceived (chars : List LinkChar) : Statement (.answerReceived chars) := fun _ _ h => nomatch h
theorem answerInvalid : Statement .answerInvalid := fun _ _ h => nomatch h
theorem replyWindowExpiry : Statement .replyWindowExpiry := fun _ _ h => nomatch h
theorem motionDeadlineExpiry (shuttle : Fin 6) : Statement (.motionDeadlineExpiry shuttle) := fun _ _ h => nomatch h
theorem auditCursorStep : Statement .auditCursorStep := fun _ _ h => nomatch h
theorem ldone : Statement .ldone := fun _ _ h => nomatch h
theorem lflt : Statement .lflt := fun _ _ h => nomatch h
theorem crossingDeadlineExpiry : Statement .crossingDeadlineExpiry := fun _ _ h => nomatch h
theorem receivedCharacterDiscarded (char : LinkChar) : Statement (.receivedCharacterDiscarded char) := fun _ _ h => nomatch h

end Sys2Proof.Laws.Unspelled
end

