-- ==== Sys2Proof/Laws/Readings.lean ====
section
/-! SUPPORT. Where the two readings of a rule that the spec states in two ways give the same reply (log entries 28 and 29). -/

namespace Sys2Proof.Machine

variable {s : State} {o : Operands} {b : BinNo}

/-- A pick station a number names is the station of that number. -/
theorem asPick?_some {n : StationNo} {k : PickNo} (h : asPick? n = some k) : n.val = k.val := by
  simp only [asPick?, index?] at h
  split at h <;> cases h
  rfl

/-- A handling request replies by its own checks alone: two that agree at every pick station CONTEXT may name agree. -/
theorem handlingAt_congr {inRange : Operands → Bool} {e e' : PickNo → Evaluation}
    (h : ∀ k : PickNo, o.station = k.val → e k o s = e' k o s) : handlingAt inRange e o s = handlingAt inRange e' o s := by
  unfold handlingAt atContext
  cases hn : o.station? with
  | none => rfl
  | some n =>
    simp only
    cases hk : asPick? n with
    | none => rfl
    | some k =>
      have hv : o.station = n.val := by
        simp only [Operands.station?, index?] at hn
        split at hn <;> cases hn
        rfl
      simp only [h k (hv.trans (asPick?_some hk))]

/-- Where the CONTEXT station has a presented bin, the two readings of CHARGE agree. -/
theorem chargeUnder_of_presented (h : ∀ k : PickNo, o.station = k.val → (s.presentedAt? k).isSome) (needsBin : Bool) :
    chargeUnder needsBin o s = chargeUnder false o s :=
  handlingAt_congr fun k hk => by
    obtain ⟨x, hx⟩ := Option.isSome_iff_exists.mp (h k hk)
    simp only [hx, Option.isNone_some, Bool.false_and]

@[simp] theorem auditZonesNormal_of_hallNormal (h : s.hallNormal = true) (needsHall : Bool) :
    s.auditZonesNormal needsHall b = s.homeNormal b := by
  simp [State.auditZonesNormal, h]

@[simp] theorem auditZonesNormal_false : s.auditZonesNormal false b = s.homeNormal b := by
  simp [State.auditZonesNormal]

@[simp] theorem auditZonesNormal_true : s.auditZonesNormal true b = (s.homeNormal b && s.hallNormal) := by
  simp [State.auditZonesNormal]

/-- Where zone 3 is NORMAL, the two readings of AUDIT BIN agree. -/
theorem auditBinUnder_of_hallNormal (h : s.hallNormal = true) (needsHall : Bool) :
    auditBinUnder needsHall o s = auditBinUnder false o s := by
  simp [auditBinUnder, auditBinRefusal, h]

end Sys2Proof.Machine
end

