-- ==== Sys2Proof/Laws/Reads.lean ====
section
/-! SUPPORT. Reading over writing: what each record reader gives after each record update, and what the Order Unit's and the
Aisle Link Controller's shared operations leave in the entry, the queue, the shuttle and the line they write. -/

namespace Sys2Proof.Machine

variable (s : State)

/-! ## Readers of the tables -/

theorem item?_putItem (t u : Tag) (i : Item) : (s.putItem t i).item? u = if u = t then some i else s.item? u := by
  simp only [State.item?, State.putItem]
  split
  · rename_i h; subst h; exact tableFind_insert_self _ _ _
  · rename_i h; exact tableFind_insert_ne i h _

theorem patron?_changePatron (n m : PatronNo) (f : Patron → Patron) :
    (s.changePatron n f).patron? m = if m = n then (s.patron? n).map f else s.patron? m := by
  simp only [State.patron?, State.changePatron]
  split
  · rename_i h; subst h; exact tableFind_update_self _ _ _
  · rename_i h; exact tableFind_update_ne f h _

theorem patron?_putPatron (n m : PatronNo) (p : Patron) :
    (s.putPatron n p).patron? m = if m = n then some p else s.patron? m := by
  simp only [State.patron?, State.putPatron]
  split
  · rename_i h; subst h; exact tableFind_insert_self _ _ _
  · rename_i h; exact tableFind_insert_ne p h _

theorem binRec?_changeBin (b c : BinNo) (f : BinRec → BinRec) :
    (s.changeBin b f).binRec? c = if c = b then (s.binRec? b).map f else s.binRec? c := by
  simp only [State.binRec?, State.changeBin]
  split
  · rename_i h; subst h; exact tableFind_update_self _ _ _
  · rename_i h; exact tableFind_update_ne f (fun e => h (Fin.ext e)) _

theorem binRec?_putBin (b c : BinNo) (r : BinRec) :
    (s.putBin b r).binRec? c = if c = b then some r else s.binRec? c := by
  simp only [State.binRec?, State.putBin]
  split
  · rename_i h; subst h; exact tableFind_insert_self _ _ _
  · rename_i h; exact tableFind_insert_ne r (fun e => h (Fin.ext e)) _

theorem binRec?_eraseBin_ne {b c : BinNo} (h : c ≠ b) : (s.eraseBin b).binRec? c = s.binRec? c :=
  tableFind_erase_ne (fun e => h (Fin.ext e)) _

theorem segment_putSegment (g h : SegNo) (d : Segment) :
    (s.putSegment g d).segment h = if g = h then d else s.segment h := by
  simp only [State.segment, State.putSegment, Fin.getElem_fin, Vector.getElem_set, Fin.ext_iff]

/-! ## Readers of the rows -/

theorem order?_putOrder (o q : OrderNo) (r : Order) :
    (s.putOrder o r).order? q = if o = q then some r else s.order? q := by
  simp only [State.order?, State.putOrder, Fin.getElem_fin, Vector.getElem_set, Fin.ext_iff]

theorem order?_freeOrder (o q : OrderNo) : (s.freeOrder o).order? q = if o = q then none else s.order? q := by
  simp only [State.order?, State.freeOrder, Fin.getElem_fin, Vector.getElem_set, Fin.ext_iff]

theorem queue_setQueue (a b : Aisle) (q : List OrderNo) : (s.setQueue a q).queue b = if a = b then q else s.queue b := by
  simp only [State.queue, State.setQueue, Fin.getElem_fin, Vector.getElem_set, Fin.ext_iff]

theorem shuttle_changeShuttle (a b : Aisle) (f : Shuttle → Shuttle) :
    (s.changeShuttle a f).shuttle b = if a = b then f (s.shuttle a) else s.shuttle b := by
  simp only [State.shuttle, State.changeShuttle, State.putShuttle, Fin.getElem_fin, Vector.getElem_set, Fin.ext_iff]

theorem slot_setSlot (a b : Aisle) (m : Option Message) : (s.setSlot a m).slot b = if a = b then m else s.slot b := by
  simp only [State.slot, State.setSlot, Fin.getElem_fin, Vector.getElem_set, Fin.ext_iff]

theorem outPlace_setOutPlace (a b : Aisle) (x : Option BinNo) :
    (s.setOutPlace a x).outPlace b = if a = b then x else s.outPlace b := by
  simp only [State.outPlace, State.setOutPlace, Fin.getElem_fin, Vector.getElem_set, Fin.ext_iff]

theorem inPlace_setInPlace (a b : Aisle) (x : Option BinNo) :
    (s.setInPlace a x).inPlace b = if a = b then x else s.inPlace b := by
  simp only [State.inPlace, State.setInPlace, Fin.getElem_fin, Vector.getElem_set, Fin.ext_iff]

theorem stationState_setStationState (n m : StationNo) (st : StationState) :
    (s.setStationState n st).stationState m = if n = m then st else s.stationState m := by
  simp only [State.stationState, State.setStationState, Fin.getElem_fin, Vector.getElem_set, Fin.ext_iff]

theorem stationOut_setStationOut (n m : StationNo) (x : Option BinNo) :
    (s.setStationOut n x).stationOut m = if n = m then x else s.stationOut m := by
  simp only [State.stationOut, State.setStationOut, Fin.getElem_fin, Vector.getElem_set, Fin.ext_iff]

theorem presentationQueue_set (n m : PickNo) (q : List BinNo) :
    (s.setPresentationQueue n q).presentationQueue m = if n = m then q else s.presentationQueue m := by
  simp only [State.presentationQueue, State.setPresentationQueue, Fin.getElem_fin, Vector.getElem_set, Fin.ext_iff]

theorem reserved_setReserved (n m : PickNo) (k : Nat) :
    (s.setReserved n k).reserved m = if n = m then k else s.reserved m := by
  simp only [State.reserved, State.setReserved, Fin.getElem_fin, Vector.getElem_set, Fin.ext_iff]

theorem position_setPosition (p q : Position) (st : PosState) :
    (s.setPosition p st).position q = if q = p then st else s.position q := by
  cases p <;> cases q <;> rfl

/-! ## The Order Unit's shared operations -/

/-- A placed order stands in its entry, and no other entry changes (R41). -/
theorem order?_placeOrder (o q : OrderNo) (r : Order) :
    (s.placeOrder o r).order? q = if o = q then some r else s.order? q := by
  simp only [State.placeOrder]
  split <;> exact order?_putOrder s o q r

/-- A placed order is its bin's holder (R41). -/
theorem binRec?_placeOrder (o : OrderNo) (r : Order) (b : BinNo) :
    (s.placeOrder o r).binRec? b =
      if b = r.bin then (s.binRec? b).map fun x => { x with holder := some o } else s.binRec? b := by
  have h : (s.placeOrder o r).binRec? b = ((s.putOrder o r).setHolder r.bin (some o)).binRec? b := by
    simp only [State.placeOrder]
    split <;> rfl
  rw [h, State.setHolder, binRec?_changeBin]
  split
  · rename_i e; subst e; rfl
  · rfl

/-- A QUEUED order joins the queue of its aisle behind every order of its priority or a higher one (R48). -/
theorem queue_placeOrder (o : OrderNo) (r : Order) (a : Aisle) :
    (s.placeOrder o r).queue a =
      if r.stage = .run .queued ∧ r.aisle = a then queueInsert (s.putOrder o r).priorityOf o (s.queue a) else s.queue a := by
  simp only [State.placeOrder]
  by_cases h : r.stage = .run .queued
  · simp only [h, if_true, true_and, State.joinQueue, queue_setQueue]
    split
    · rename_i e; subst e; rfl
    · rfl
  · simp only [h, if_false, false_and]
    rfl

/-- A command given to a shuttle waits in its slot and is in flight, SENT (R80). -/
theorem slot_giveCommand (a b : Aisle) (m : Motion) (fire : Bool) :
    (s.giveCommand a m fire).slot b = if a = b then some (.command m fire) else s.slot b := by
  simp only [State.giveCommand, slot_setSlot]
  rfl

theorem shuttle_giveCommand (a b : Aisle) (m : Motion) (fire : Bool) :
    (s.giveCommand a m fire).shuttle b =
      if a = b then { s.shuttle a with command := some ⟨m, .sent, fire⟩, deadline := none } else s.shuttle b :=
  shuttle_changeShuttle s a b fun r => { r with command := some ⟨m, .sent, fire⟩, deadline := none }

/-- The entry of an order that finishes (R43), and no other entry changes. -/
theorem order?_finishOrder {o : OrderNo} {r : Order} (h : s.order? o = some r) (out : Outcome) (q : OrderNo) :
    (s.finishOrder o out).order? q =
      if o = q then some { r with stage := .finished (r.outcomeOf out), pendingOutcome := none } else s.order? q := by
  have hd : ∀ (t : State) (x : Option Dest) (b : BinNo) (w : Outcome) (q : OrderNo),
      (t.endDestination o b w x).order? q = t.order? q := by
    intro t x b w q
    unfold State.endDestination
    split
    · rfl
    · unfold State.endPositionFetch; split <;> rfl
    · rfl
  have hc : ∀ (t : State) (q : OrderNo), (t.dropCurrent r.aisle o).order? q = t.order? q := by
    intro t q
    unfold State.dropCurrent
    split <;> rfl
  simp only [State.finishOrder, h]
  split
  · exact (hd _ _ _ _ q).trans ((hc _ q).trans (order?_putOrder s o q _))
  · exact (hd _ _ _ _ q).trans ((hc _ q).trans (order?_putOrder s o q _))

/-- An order that enters a stage stands in it, and its shuttle has the stage's command (R51). -/
theorem order?_enterStage (a : Aisle) (o q : OrderNo) (r : Order) (st : RunStage) (m : Motion) :
    (s.enterStage a o r st m).order? q = if o = q then some { r with stage := .run st } else s.order? q :=
  order?_putOrder s o q _

/-! ## The Aisle Link Controller's shared operations -/

theorem shuttle_putShuttle (a b : Aisle) (r : Shuttle) : (s.putShuttle a r).shuttle b = if a = b then r else s.shuttle b :=
  shuttle_changeShuttle s a b fun _ => r

/-- Of two records written for one shuttle the later one stands. -/
@[simp] theorem putShuttle_putShuttle (a : Aisle) (r t : Shuttle) : (s.putShuttle a r).putShuttle a t = s.putShuttle a t := by
  simp [State.putShuttle]

/-- A valid answer changes the shuttle's own record and nothing else (R76, R77). -/
theorem heard_eq (a : Aisle) (x : LinkAnswer) : ∃ r : Shuttle, s.heard a x = s.putShuttle a r := by
  cases x <;> exact ⟨_, rfl⟩

/-- Every character has eleven bits (R73). -/
@[simp] theorem length_characterBits (c : LinkChar) : (characterBits c).length = 11 := rfl

/-- At the end of a message LDIR is released and the line rests at the marking level (R73, R76). -/
theorem line_beginExchange (c : GrantClass) (a : Aisle) :
    (s.beginExchange c a).alc.line = transmission ((s.grantKind c a).chars a) := rfl

theorem ldir_beginExchange (c : GrantClass) (a : Aisle) : (s.beginExchange c a).ldir = false := by
  simp [State.ldir, line_beginExchange, transmission, restingLine]

theorem ltx_beginExchange (c : GrantClass) (a : Aisle) : (s.beginExchange c a).ltx = true := by
  simp [State.ltx, line_beginExchange, transmission, restingLine]

end Sys2Proof.Machine
end

