-- ==== Sys2Proof/Tests/Slice0.lean ====
section
/-! SUPPORT. The model's own tests: ill-formed commands that the check refuses, worked examples of the spec, and for every
statement states and operands that meet its hypotheses, clause by clause. -/

namespace Sys2Proof.Tests

set_option maxRecDepth 20000

open Sys2Proof.Machine

/-! ## Small states -/

/-- A state whose host cells CONTEXT and P0 to P5 hold these values. -/
def asked (s : State) (context p0 p1 p2 p3 p4 p5 : Word) : State :=
  { s with win := { s.win with context := context, p := #v[p0, p1, p2, p3, p4, p5] } }

/-- The completion code a command leaves. -/
def codeAfter (i : Instr) (s : State) : Option Code :=
  match exec i s with
  | .next t => some t.win.code
  | _ => none

/-- The answer a command leaves. -/
def answerAfter (i : Instr) (s : State) : Option Answer :=
  match exec i s with
  | .next t => some t.win.a
  | _ => none

/-- The state a command leaves. -/
def after (i : Instr) (s : State) : State :=
  match exec i s with
  | .next t => t
  | _ => s

/-- The code an operand fails with. -/
def operandError (s : State) : Option Code :=
  match s.enrolledOperand s.operands with
  | .error c => some c
  | .ok _ => none

/-- The bin an operand names. -/
def operandBin (s : State) : Option BinNo :=
  match s.enrolledOperand s.operands with
  | .error _ => none
  | .ok (b, _) => some b

def upSegment : Segment :=
  { valid := true, aisle := 0, base := 0, length := 64, direction := .up, cls := .openClass, changed := false }

def downSegment : Segment :=
  { valid := true, aisle := 1, base := 511, length := 2, direction := .down, cls := .view, changed := true }

def someBin (kind : BinKind) (place : Place) (count : Nat) : BinRec :=
  { kind := kind, capacity := 3, itemCount := count, pickedOut := 0, place := place, holder := none }

/-- Two segments; bin 0 at home, 1 presented at station 0, 2 in the INTAKE position, 3 MISSING, 126 at home in a VIEW segment; an item in
each state but HELD; two patrons; every station OPEN. -/
def wing : State :=
  { State.reset with
    tab := { formattedTables with
      segments := (formattedTables.segments.set 0 upSegment).set 1 downSegment
      bins := [(0, someBin .collection .home 0), (1, { someBin .collection (.atStation (.pick 0)) 1 with pickedOut := 1 }),
        (2, someBin .intake (.atStation (.ret .intake)) 2), (3, someBin .collection .missing 1), (126, someBin .hold .home 0)]
      items := [(7, ⟨.shelved 1, []⟩), (8, ⟨.onLoan 5 10 0, []⟩), (9, ⟨.dropped, []⟩), (10, ⟨.picked 0 1, []⟩),
        (11, ⟨.lost, []⟩), (12, ⟨.shelved 3, [6]⟩)]
      patrons := [(5, ⟨.student, 0, false, [8]⟩), (6, ⟨.desk, 1, false, []⟩)] }
    dropList := [9]
    su := { resetStationUnit with
      states := Vector.replicate 5 .opened, queues := #v[[1], [], [], []], intake := .presented 2, hold := .wanting } }

def someOrder (kind : OrderKind) (stage : Stage) (dest : Option Dest) : Order :=
  { kind := kind, source := .host, bin := 0, aisle := 0, priority := 3, stage := stage, dest := dest, cancel := false
    pendingOutcome := none }

/-- Shuttle 0 in a state, with a command in flight and an order. -/
def someShuttle (st : ShuttleState) (command : Option InFlight) (o : Option OrderNo) : Shuttle :=
  { resetShuttle with state := st, silence := 0, command := command, order := o, pollWait := some 2 }

/-- The wing with order 4 for bin 0, held by it. -/
def ordered (r : Order) : State := (wing.putOrder 4 r).setHolder r.bin (some 4)

/-- Order 4 under way on shuttle 0. -/
def underWay (kind : OrderKind) (stage : RunStage) (m : Motion) (mark : CommandMark) : State :=
  (ordered (someOrder kind (.run stage) none)).putShuttle 0 (someShuttle .busy (some ⟨m, mark, false⟩) (some 4))

/-- An exchange with shuttle 0. -/
def talking (k : ExchangeKind) (s : State) : State :=
  { s with alc.exchange := some { shuttle := 0, kind := k, use := .full, sent := k.chars 0 } }

/-- Data characters. -/
def data (bytes : List Byte) : List LinkChar := bytes.map fun b => ⟨b, false, true⟩

/-- A STATUS answer of shuttle 0, idle at position 0 with no bin. -/
def statusIdle : StatusAnswer := { motion := .idle, last := none, label := .none, position := some (.rack 0), code := 0 }

/-- A crossing from port 0 to station 0. -/
def someCrossing (d : CrossDest) (st : CrossState) : Crossing := { source := .port 0, dest := d, bin := 0, order := 4, state := st }

/-- The wing with a crossing under way. -/
def crossing (d : CrossDest) (st : CrossState) (kind : OrderKind) (dest : Option Dest) : State :=
  { (ordered (someOrder kind (.run .crossing) dest)).setPlace 0 .crossing with lc.crossing := some (someCrossing d st) }

/-- The wing with a zone in a state. -/
def zoned (z : ZoneNo) (st : ZoneState) : State := wing.setZoneState z st

/-! ## Ill-formed commands -/

theorem test_definedCode_illFormed : (Instr.undefinedRequest 0x20).wellFormed = false := by decide
theorem test_cellWithRow_illFormed : (Instr.windowCellWrite 13 0).wellFormed = false := by decide
theorem test_wrongCheck_illFormed : (Instr.answerReceived (data [0x80, 0x81])).wellFormed = false := by decide
theorem test_cutAnswer_illFormed : (Instr.answerReceived (data [0x80])).wellFormed = false := by decide
theorem test_markedAnswer_illFormed : (Instr.answerReceived [⟨0x80, true, true⟩, ⟨0x80, false, true⟩]).wellFormed = false := by decide
theorem test_wellFormed_examples :
    (Instr.undefinedRequest 0x0C).wellFormed = true ∧ (Instr.windowCellWrite 8 1).wellFormed = true
      ∧ (Instr.answerReceived (data [0x80, 0x80])).wellFormed = true := by decide

/-! ## Worked examples of the spec -/

/-- 12 A: RESET and START_UP over lost memory give the reset state. -/
theorem test_startUp_reset : after .startUp (after (.resetAsserted .lost) State.reset) = State.reset := by decide

/-- R184: TRAVEL of shuttle 3 to position 300. -/
theorem test_travel_message :
    ((ExchangeKind.command (.travel 300)).chars 3).map (·.data) = [0x04, 0x01, 0x02, 0x01, 0x2C, 0xD0] := by decide

/-- 09 B, A Collision: a STATE read shows COLLIDED and clears it. -/
theorem test_collision :
    let s := after (.requestCollision 0x33) { wing with win.busy := true }
    s.win.collided = true ∧ (after .stateRead s).dataOut.getLsbD 14 = true ∧ (after .stateRead s).win.collided = false := by
  decide

/-- 10 B, Serving Causes in Order: 5 is read first, then 4, then 9. -/
theorem test_serving_order :
    let s : State := { ordered (someOrder .fetch (.finished .ok) none) with
      dropList := [], au.latches := 0b00100010000, win.enable := 0x7FF, win.levels := 0b001001 }
    s.causeNumber = 5 ∧ (s.writeCause 0b10000).causeNumber = 4 ∧ ((s.writeCause 0b10000).freeOrder 4).causeNumber = 9
      ∧ s.attn = true := by decide

/-- 08: the three writes of a release of zone 3. -/
theorem test_release :
    let s := after (.releaseWrite 3) (after (.releaseWrite 0xFFFC) (after (.releaseWrite 3) (zoned 3 .sealed)))
    s.win.code = .zoneReleased ∧ s.zoneState 3 = .normal ∧ (s.zone 3).clr = false := by decide

/-! ## States that meet the hypotheses of the statements -/

theorem witness_BinOperandResolvesByForm :
    wing.windowFree = true
      ∧ operandBin (asked wing 0 0 0 0 0 0 0) = some 0 ∧ operandError (asked wing 0 0x0800 0 0 0 0 0) = some .badOperand
      ∧ (asked wing 0 0x2000 7 0 0 0 0).operands.form = 1 ∧ operandBin (asked wing 0 0x2000 7 0 0 0 0) = some 1
      ∧ operandError (asked wing 0 0x2000 8 0 0 0 0) = some .wrongState
      ∧ operandError (asked wing 0 0x2000 0xFFFF 0 0 0 0) = some .noRecord
      ∧ operandError (asked wing 0 0x2000 0 0 0 0 0) = some .badOperand
      ∧ (asked wing 0 0x4001 0 0 0 0 0).operands.form = 2 ∧ operandBin (asked wing 0 0x4001 0 0 0 0 0) = some 126
      ∧ operandError (asked wing 0 0x4001 2 0 0 0 0) = some .length ∧ operandError (asked wing 0 0x401F 63 0 0 0 0) = some .length
      ∧ operandError (asked wing 0 0x4020 0 0 0 0 0) = some .badOperand
      ∧ operandError (asked wing 0 0x4000 64 0 0 0 0) = some .badOperand
      ∧ (asked wing 0 0x6000 0 0 0 0 0).operands.form = 3 ∧ operandBin (asked wing 0 0x6000 0 0 0 0 0) = some 1
      ∧ operandError (asked wing 3 0x6000 0 0 0 0 0) = some .notPresented
      ∧ operandError (asked wing 4 0x6000 0 0 0 0 0) = some .notPresented
      ∧ operandError (asked wing 5 0x6000 0 0 0 0 0) = some .badOperand
      ∧ (asked wing 0 0x8000 0 0 0 0 0).operands.form = 4
      ∧ codeAfter .enrolBin (asked wing 0 0x8000 0 0 1 0 0) = some .badOperand
      ∧ codeAfter .readBin (asked wing 0 4 0 0 0 0 0) = some .noRecord := by decide

theorem witness_BinNumberMapsToHomePosition :
    (wing.segment 0).direction = .up ∧ (wing.segment 1).direction = .down ∧ (wing.segment 2).valid = false
      ∧ wing.binRec? 5 = none ∧ wing.homePosition 63 = 63 ∧ wing.homePosition 127 = 511 ∧ wing.homePosition 126 = 510
      ∧ (wing.segment 1).holdsOffset 61 = false ∧ (wing.segment 1).holdsOffset 62 = true
      ∧ operandError (asked wing 0 0x0080 0 0 0 0 0) = some .length := by decide

theorem witness_BinRecordsAreCreatedRemovedAndPlaced :
    codeAfter .enrolBin (asked wing 0 63 0 2 24 0 0) = some .ok ∧ codeAfter .enrolBin (asked wing 0 63 0 3 24 0 0) = some .badOperand
      ∧ codeAfter .enrolBin (asked wing 0 63 0 2 25 0 0) = some .badOperand
      ∧ codeAfter .enrolBin (asked wing 0 0 0 0 1 0 0) = some .duplicate
      ∧ codeAfter .retireBin (asked wing 0 0 0 0 0 0 0) = some .ok ∧ codeAfter .retireBin (asked wing 0 3 0 0 0 0 0) = some .inUse
      ∧ codeAfter .setPlace (asked wing 0 3 0 0 0 0 0) = some .ok ∧ codeAfter .setPlace (asked wing 0 3 0 8 0 0 0) = some .badOperand
      ∧ codeAfter .setPlace (asked wing 0 0 0 9 0 0 0) = some .wrongPlace := by decide

theorem witness_DefineSegmentIsCheckedAndWritten :
    codeAfter .defineSegment (asked wing 0 31 1 5 511 1 0x0003) = some .ok
      ∧ answerAfter .defineSegment (asked wing 0 31 0 0 0 0 0) = some { a0 := 0xFFFF, a1 := 0xFFFF }
      ∧ codeAfter .defineSegment (asked wing 0 31 2 0 0 0 0) = some .badOperand
      ∧ codeAfter .defineSegment (asked wing 0 31 1 5 511 2 0) = some .badOperand
      ∧ codeAfter .defineSegment (asked wing 0 1 1 1 511 3 0x0102) = some .changedPending
      ∧ codeAfter .defineSegment (asked wing 0 0 1 1 0 64 0) = some .segmentInUse
      ∧ codeAfter .defineSegment (asked wing 0 0 1 0 0 3 0) = some .segmentInUse
      ∧ codeAfter .defineSegment (asked wing 0 31 1 0 63 1 0) = some .overlap
      ∧ codeAfter .defineSegment (asked wing 0 32 1 0 0 1 0) = some .badOperand
      ∧ (let none? (p1 p2 p3 p4 p5 : Word) := ((asked wing 0 31 p1 p2 p3 p4 p5).operands.descriptor? (wing.segment 31)).isNone
        none? 2 0 0 1 0 = true ∧ none? 1 6 0 1 0 = true ∧ none? 1 0 512 1 0 = true ∧ none? 1 0 0 0 0 = true
          ∧ none? 1 0 0 65 0 = true ∧ none? 1 0 0 1 0x0200 = true ∧ none? 1 0 0 1 4 = true ∧ none? 1 5 511 64 0x0103 = false
          ∧ none? 0 6 512 65 4 = false) := by decide

theorem witness_BinAndSegmentReadsAnswer :
    answerAfter .readBin (asked wing 0 1 0 0 0 0 0) = some { a0 := 0x0001, a1 := 0x0301, a2 := 0x01FF, a3 := 0x5001 }
      ∧ answerAfter .readSegment (asked wing 0 1 0 0 0 0 0) = some { a0 := 0xC001, a1 := 511, a2 := 0x0201, a3 := 0x0102 }
      ∧ answerAfter .readChanged wing = some { a0 := 2 } ∧ answerAfter .clearChanged (asked wing 0 1 0 0 0 0 0) = some { a0 := 1 }
      ∧ codeAfter .clearChanged (asked wing 0 32 0 0 0 0 0) = some .badOperand := by decide

theorem witness_DayAndCategoryRowsAreSet :
    codeAfter .setDay (asked wing 0 0 0 0 0 0 0) = some .ok
      ∧ codeAfter .setDay (asked { wing with tab.day := 1 } 0 0 0 0 0 0 0) = some .dayBackward
      ∧ answerAfter .setCategory (asked wing 0 3 63 180 0 0 0) = some { a0 := 63, a1 := 180 }
      ∧ codeAfter .setCategory (asked wing 0 3 64 180 0 0 0) = some .badOperand
      ∧ answerAfter .readCategory (asked wing 0 0 0 0 0 0 0) = some { a0 := 20, a1 := 28 }
      ∧ codeAfter .readCategory (asked wing 0 4 0 0 0 0 0) = some .badOperand := by decide

theorem witness_PatronRecordsAreKept :
    codeAfter .enrolPatron (asked wing 0 15 0xFFFF 3 0 0 0) = some .ok
      ∧ codeAfter .enrolPatron (asked wing 0 16 0 3 0 0 0) = some .badOperand
      ∧ codeAfter .enrolPatron (asked wing 0 0 1 4 0 0 0) = some .badOperand
      ∧ codeAfter .enrolPatron (asked wing 0 0 5 0 0 0 0) = some .duplicate
      ∧ codeAfter .retirePatron (asked wing 0 0 5 0 0 0 0) = some .inUse
      ∧ codeAfter .retirePatron (asked wing 0 0 4 0 0 0 0) = some .noRecord
      ∧ codeAfter .setPatronBlock (asked wing 0 0 5 1 0 0 0) = some .ok
      ∧ codeAfter .setPatronBlock (asked wing 0 0 5 2 0 0 0) = some .badOperand
      ∧ codeAfter .setPatronBlock (asked wing 0 0 0 1 0 0 0) = some .badOperand := by decide

theorem witness_PatronAndItemReadsAnswer :
    answerAfter .readPatron (asked wing 0 0 5 0 0 0 0) = some { a0 := 0x0001, a1 := 0, a2 := 10, a3 := 0 }
      ∧ answerAfter .readPatron (asked wing 0 0 6 0 0 0 0) = some { a0 := 0x0300, a1 := 0x0100, a2 := 0xFFFF, a3 := 0 }
      ∧ codeAfter .readPatron (asked wing 0 0 0 0 0 0 0) = some .badOperand
      ∧ codeAfter .readLoans (asked wing 0 0 4 62 0 0 0) = some .noRecord
      ∧ answerAfter .readLoans (asked wing 0 0 5 0 0 0 0) = some { a0 := 0, a1 := 8, a2 := 10, a3 := 1 }
      ∧ answerAfter .readLoans (asked wing 0 0 5 62 0 0 0) = some { a0 := 0, a1 := 0, a2 := 0xFFFF, a3 := 0xFF01 }
      ∧ codeAfter .readLoans (asked wing 0 0 5 63 0 0 0) = some .badOperand
      ∧ answerAfter .readItem (asked wing 0 0 7 0 0 0 0) = some { a0 := 0, a1 := 1, a2 := 0xFFFF, a3 := 0 }
      ∧ answerAfter .readItem (asked wing 0 0 8 1 0 0 0) = some { a0 := 0, a1 := 5, a2 := 10, a3 := 0 }
      ∧ answerAfter .readItem (asked wing 0 0 7 1 0 0 0) = some { a0 := 0xFFFF, a1 := 0xFFFF, a2 := 0xFFFF, a3 := 0xFFFF }
      ∧ answerAfter .readItem (asked wing 0 0 12 2 0 0 0) = some { a0 := 0, a1 := 6, a2 := 1 }
      ∧ codeAfter .readItem (asked wing 0 0 12 2 4 0 0) = some .badOperand
      ∧ codeAfter .readItem (asked wing 0 0xFF 0xFFFF 2 3 0 0) = some .noRecord := by decide

theorem witness_ItemsAreEnrolledAndRetired :
    answerAfter .enrolItem (asked wing 0 0xFF 0xFFFF 0 0 0 0) = some { a0 := 1, a1 := 2 }
      ∧ codeAfter .enrolItem (asked wing 0 0x100 0 0 0 0 0) = some .badOperand
      ∧ codeAfter .enrolItem (asked wing 3 0 1 0 0 0 0) = some .notPresented
      ∧ codeAfter .enrolItem (asked (wing.putBin 1 (someBin .hold (.atStation (.pick 0)) 1)) 0 0 1 0 0 0 0) = some .wrongState
      ∧ codeAfter .retireItem (asked wing 0 0 7 0 0 0 0) = some .ok ∧ codeAfter .retireItem (asked wing 0 0 9 0 0 0 0) = some .ok
      ∧ codeAfter .retireItem (asked wing 0 0 11 0 0 0 0) = some .ok
      ∧ codeAfter .retireItem (asked wing 0 0 8 0 0 0 0) = some .wrongState
      ∧ codeAfter .retireItem (asked wing 0 0 6 0 0 0 0) = some .noRecord
      ∧ codeAfter .retireItem (asked wing 0 0 0 0 0 0 0) = some .badOperand := by decide

theorem witness_FetchAndAuditBinQueueOrders :
    answerAfter .fetch (asked wing 3 0 0 3 0 0 0) = some { a0 := 0 } ∧ codeAfter .fetch (asked wing 0 0 0 4 0 0 0) = some .badOperand
      ∧ codeAfter .fetch (asked wing 0 3 0 0 0 0 0) = some .wrongPlace
      ∧ (after .fetch (asked wing 3 0 0 3 0 0 0)).queue 0 = [0]
      ∧ codeAfter .auditBin (asked wing 5 3 0 3 0 0 0) = some .ok
      ∧ codeAfter .auditBin (asked wing 0 1 0 0 0 0 0) = some .wrongPlace
      ∧ wing.freeEntry? = some 0 := by decide

/-- AUDIT BIN while zone 3 is SEALED, under each reading of the zones it asks for (R64; R141). -/
theorem test_auditBin_hallSealed : ∀ needsHall : Bool,
    ((asked (zoned 3 .sealed) 5 3 0 3 0 0 0).takeRequest 0x27 (auditBinUnder needsHall)).win.code
      = if needsHall then .zoneLocked else .ok := by decide

theorem witness_RequestsCheckTheirStation :
    codeAfter .pick (asked wing 5 0 7 0 0 0 0) = some .badOperand ∧ codeAfter .fetch (asked wing 4 0 0 3 0 0 0) = some .wrongState
      ∧ codeAfter .dismiss (asked wing 4 3 0 0 0 0 0) = some .wrongState
      ∧ codeAfter .enrolItem (asked wing 4 0xFF 0xFFFF 0 0 0 0) = some .wrongState
      ∧ codeAfter .returnItem (asked wing 3 0 1 0 0 0 0) = some .wrongState
      ∧ codeAfter .closePosition (asked wing 3 1 0 0 0 0 0) = some .wrongState
      ∧ codeAfter .pick (asked (wing.setStationState 3 (.fireHeld true)) 3 0 7 0 1 0 0) = some .zoneLocked
      ∧ codeAfter .pick (asked (wing.setStationState 3 .closed) 3 0 7 0 1 0 0) = some .stationClosed
      ∧ codeAfter .renew (asked wing 3 0 1 0 1 0 0) = some .noRecord
      ∧ codeAfter .placeHold (asked (wing.setStationState 0 (.fireHeld false)) 0 0 7 0 5 0 0) = some .stationClosed
      ∧ codeAfter .cancelHold (asked (wing.setStationState 0 (.fireHeld true)) 0 0 1 0 5 0 0) = some .noRecord
      ∧ codeAfter .charge (asked wing 4 0xFF 0xFFFF 0xF 0xFFFF 0 0) = some .wrongState
      ∧ codeAfter .cancelHold (asked wing 4 0 1 0 1 0 0) = some .wrongState
      ∧ codeAfter .renew (asked wing 4 0x100 0 0 0 0 0) = some .badOperand
      ∧ codeAfter .placeDropped (asked wing 4 0 0 0 0 0 0) = some .badOperand
      ∧ codeAfter .placeHold (asked wing 4 0 7 0x10 0 0 0) = some .badOperand
      ∧ codeAfter .charge (asked wing 0 0 7 0 0 0 0) = some .badOperand
      ∧ codeAfter .declareLost (asked (wing.setStationState 3 .closed) 3 0 7 0 0 0 0) = some .stationClosed
      ∧ codeAfter .reclaimPlace (asked ((wing.setOutPlace 5 (some 0)).setPlace 0 (.portOut 5)) 4 0 5 3 0 0 0) = some .wrongState
      := by decide

theorem witness_QueuesAndLoanListsKeepTheirOrder :
    queueInsert (fun o => if o = 2 then 3 else 1) 1 [2, 0] = [2, 0, 1]
      ∧ ([2, 0] : List OrderNo).Pairwise (fun x y => (if y = 2 then 3 else 1) ≤ (if x = 2 then 3 else 1))
      ∧ loanInsert (fun t => t) 8 8 [8, 9] = [8, 8, 9] ∧ ([8, 9] : List Tag).Pairwise (fun x y => x ≤ y) := by decide

theorem witness_SettlingGivesTheBlocksTheirWork :
    let s := ((ordered (someOrder .fetch (.run .queued) none)).setQueue 0 [4]).putShuttle 0 (someShuttle .idle none none)
    let quiet : State := { wing.putShuttle 0 (someShuttle .idle none none) with ou.quiet := .quiescing }
    let held := ordered (someOrder .fetch (.run .holding) (some (.pick 0))) |>.putShuttle 0 (someShuttle .busy none (some 4))
    let taking := ordered (someOrder .stow (.run .takingOn) none) |>.putShuttle 0 (someShuttle .busy none (some 4))
    s.readyForOrder 0 = true ∧ (s.queue 0).find? s.dispatchable = some 4 ∧ wing.readyForOrder 0 = false
      ∧ (wing.queue 0).find? wing.dispatchable = none ∧ (s.setZoneState 0 .sealed).dispatchable 4 = false
      ∧ (s.setSlot 0 (some .hostRevival)).readyForOrder 0 = false
      ∧ ((quiet.putShuttle 0 (someShuttle .parked none none)).readyForOrder 0) = true
      ∧ (quiet.quietPark 0).slot 0 = some (.command .park false) ∧ (quiet.queue 0).find? quiet.dispatchable = none
      ∧ (held.resumeHolding 0).slot 0 = some (.command .handOff false) ∧ held.outPlace 0 = none
      ∧ (held.setOutPlace 0 (some 3)).outPlace 0 ≠ none ∧ wing.currentOrder? 0 = none
      ∧ (taking.resumeTakeOn 0).slot 0 = some (.command .takeOn false) ∧ (taking.shuttle 0).command = none
      ∧ wing.ou.quiet ≠ .quiescing ∧ wing.ou.sweep = false ∧ s.atQuiet = false := by decide

theorem witness_FinishedOrderLetsGo :
    let s := (ordered (someOrder .fetch (.run .waitingLane) (some (.ret .hold)))).setPosition .hold (.arriving 4)
    s.order? 4 = some (someOrder .fetch (.run .waitingLane) (some (.ret .hold)))
      ∧ (s.finishOrder 4 .ok).position .hold = .presented 0 ∧ (s.finishOrder 4 .fault).position .hold = .empty
      ∧ (let r : Order := { someOrder .fetch (.run .lowering) none with pendingOutcome := some .mismatch }
        ((ordered r).finishOrder 4 .mismatch).order? 4 = some (someOrder .fetch (.finished .mismatch) none)) := by decide

theorem witness_FinishedOrdersAreCollected :
    codeAfter .collect wing = some .nothingFinished
      ∧ answerAfter .collect (ordered (someOrder .fetch (.finished .fault) none)) = some { a0 := 4, a1 := 0, a2 := 0, a3 := 7 }
      ∧ codeAfter .readOrder (asked wing 0 32 0 0 0 0 0) = some .badOperand
      ∧ codeAfter .readOrder (asked wing 0 31 0 0 0 0 0) = some .noRecord
      ∧ answerAfter .readOrder (asked (ordered (someOrder .stow (.halted ⟨.lowering, .lower, false, .fire⟩) none)) 0 4 0 0 0 0 0)
        = some { a0 := 0x0100, a1 := 0, a2 := 0x0C03, a3 := 0xFFA2 } := by decide

theorem witness_FreedEntryIsOfferedInOrder :
    (wing.offer 4 (.restore 5 0)).1 = true
      ∧ (wing.setPosition .hold (.fullWaiting 2)).position .hold = .fullWaiting 2
      ∧ ((wing.setStationOut 4 (some 3)).stationOut returnStation).isSome = true
      ∧ wing.poolFirst? .intake = none ∧ wing.poolFirst? .hold = some 126
      ∧ (wing.setPlace 0 .unverified).auditable 0 = true ∧ wing.auditable 0 = false ∧ wing.ou.quiet = .active
      ∧ (let s := wing.setPosition .hold (.fullWaiting 2)
        s.stationOut returnStation = none ∧ s.stationState returnStation = .opened
          ∧ (s.offer 4 (.dismissal .hold)).2.stationOut returnStation = some 2)
      ∧ ({ wing with ou.quiet := .quiet, ou.claims := [.audit 0] }.offer 4 (.audit 0)).2.ou.claims = []
      ∧ (let s : State := { wing with ou.quiet := .quiet }
        (s.offer 4 (.fetch .hold)).2.pendingCause .woken = true ∧ (s.offer 4 (.fetch .hold)).2.ou.quiet = .active
          ∧ (s.offer 4 (.fetch .intake)).2.ou.quiet = .quiet)
      ∧ wing.freeEntry? = some 0 ∧ (wing.putOrder 0 (someOrder .stow (.finished .ok) none)).freeEntry? = some 1
      ∧ ({ wing with ou.orders := Vector.replicate 32 (some (someOrder .stow (.finished .ok) none)) } : State).freeEntry? = none
      := by decide

theorem witness_CancelActsByStage :
    codeAfter .cancelOrder (asked wing 0 32 0 0 0 0 0) = some .badOperand
      ∧ codeAfter .cancelOrder (asked wing 0 31 0 0 0 0 0) = some .noRecord
      ∧ codeAfter .cancelOrder (asked (ordered (someOrder .fetch (.finished .ok) none)) 0 4 0 0 0 0 0) = some .wrongStage
      ∧ codeAfter .cancelOrder (asked (ordered (someOrder .fetch (.run .queued) none)) 0 4 0 0 0 0 0) = some .ok
      ∧ codeAfter .cancelOrder (asked (underWay .fetch .seeking (.travel 0) .sent) 0 4 0 0 0 0 0) = some .cancelTaken
      ∧ codeAfter .cancelOrder (asked (underWay .fetch .holding .toPort .sent) 0 4 0 0 0 0 0) = some .cancelTaken
      ∧ codeAfter .cancelOrder (asked (underWay .stow .lowering .lower .sent) 0 4 0 0 0 0 0) = some .wrongStage
      ∧ (let s := (ordered (someOrder .fetch (.run .queued) none)).setPlace 0 .unverified
        ((after .cancelOrder (asked s 0 4 0 0 0 0 0)).binRec? 0).map (·.place) = some .home)
      ∧ (let s := (ordered (someOrder .fetch (.halted ⟨.lifting, .lift, false, .fault⟩) none)).setPlace 0 .unverified
        codeAfter .cancelOrder (asked s 0 4 0 0 0 0 0) = some .ok
          ∧ ((after .cancelOrder (asked s 0 4 0 0 0 0 0)).binRec? 0).map (·.place) = some .unverified) := by decide

theorem witness_ResumeAndReviveWaitForStatus :
    let halted (reason : HaltReason) := ordered (someOrder .fetch (.halted ⟨.lifting, .lift, false, reason⟩) none)
    (after .resumeOrder (asked (halted .fault) 0 4 0 0 0 0 0)).slot 0 = some .resume
      ∧ codeAfter .resumeOrder (asked (halted .fire) 0 4 0 0 0 0 0) = some .wrongState
      ∧ codeAfter .resumeOrder (asked wing 0 31 0 0 0 0 0) = some .noRecord
      ∧ codeAfter .resumeOrder (asked wing 0 32 0 0 0 0 0) = some .badOperand
      ∧ (after .reviveShuttle (asked wing 0 5 0 0 0 0 0)).slot 5 = some .hostRevival
      ∧ codeAfter .reviveShuttle (asked wing 0 6 0 0 0 0 0) = some .badOperand
      ∧ codeAfter .reviveShuttle (asked (zoned 2 .sealed) 0 5 0 0 0 0 0) = some .zoneLocked
      ∧ answerAfter .readShuttle (asked wing 0 5 0 0 0 0 0) = some { a0 := 0x1800, a1 := 0xFFFF, a2 := 0xFFFF, a3 := 0 } := by
  decide

/-- Order 4 halted on shuttle 0, a RESUME ORDER for it waiting on its exchange. -/
def resuming (h : Restart) : State :=
  talking .resume
    { (ordered (someOrder .fetch (.halted h) none)).putShuttle 0 (someShuttle .faulted none (some 4)) with
      win.busy := true, win.waiting := some ⟨.resumeOrder 4, wing.operands⟩ }

theorem witness_ResumeAndReviveWaitForStatus_ends :
    let lift : Restart := ⟨.lifting, .lift, false, .fault⟩
    let s := resuming lift
    let x : Exchange := { shuttle := 0, kind := .resume, use := .full, sent := ExchangeKind.chars 0 .resume }
    let ends (s : State) (st : StatusAnswer) := ((s.endExchange x (some (.status st))).win.code,
      (s.endExchange x (some (.status st))).win.a)
    s.alc.exchange = some x ∧ s.win.waiting = some ⟨.resumeOrder 4, wing.operands⟩
      ∧ s.order? 4 = some (someOrder .fetch (.halted lift) none)
      ∧ ends s { statusIdle with motion := .done, last := some 2, label := .bin 0 } = (.ok, { a0 := 3, a1 := 1 })
      ∧ ends s { statusIdle with motion := .moving, last := some 2 } = (.ok, { a0 := 2, a1 := 3 })
      ∧ ends s statusIdle = (.ok, { a0 := 2, a1 := 2 })
      ∧ ends (resuming ⟨.holding, .toPort, true, .silent⟩) statusIdle = (.ok, { a0 := 5, a1 := 0 })
      ∧ ends ((resuming ⟨.handing, .handOff, false, .fault⟩).setZoneState 3 .recovery) statusIdle = (.zoneLocked, {})
      ∧ ends s { statusIdle with motion := .fault } = (.shuttleFaulted, {})
      ∧ (s.endExchange x none).win.code = .shuttleFaulted
      ∧ (s.endExchange { x with use := .silenceAndPosition } none).win.code = .wrongState
      ∧ (s.endExchange { x with use := .discard } none).win.code = .wrongState
      ∧ (s.endExchange { x with kind := .hostRevival } (some (.status statusIdle))).win.a = { a0 := 0xFFFF, a1 := 1 }
      ∧ (s.endExchange { x with kind := .hostRevival } none).win.code = .shuttleFaulted
      ∧ (s.endExchange { x with kind := .hostRevival, use := .discard } none).win.code = .zoneLocked := by decide

theorem witness_AuditSweepWalksTheBins :
    let swept := { wing.setPlace 0 .unverified with ou.sweep := true, ou.cursor := some 0 }
    codeAfter .audit wing = some .ok ∧ codeAfter .audit swept = some .auditRunning ∧ codeAfter .cancelAudit swept = some .ok
      ∧ codeAfter .cancelAudit wing = some .wrongState ∧ swept.claims 10 = false ∧ swept.auditable 0 = true
      ∧ swept.freeEntry? = some 0 ∧ (after .auditCursorStep swept).ou.auditCount = 1
      ∧ (after .auditCursorStep { swept with ou.cursor := some 1 }).ou.cursor = some 2
      ∧ (after .auditCursorStep { swept with ou.cursor := some 2048 }).ou.sweep = false
      ∧ ({ swept with ou.orders := Vector.replicate 32 (some (someOrder .probe (.run .queued) none)) } : State).freeEntry? = none
      := by decide

theorem witness_QuietRunningStartsAndEnds :
    (after .quiesce State.reset).ou.quiet = .quiet ∧ wing.atQuiet = true
      ∧ (after .wake { wing with ou.quiet := .quiet }).ou.quiet = .active
      ∧ codeAfter .quiesce { wing with ou.quiet := .quiet } = some .ok ∧ codeAfter .wake wing = some .ok
      ∧ (State.wakeByNeed { wing with ou.quiet := .quiet }).pendingCause .woken = true := by decide

theorem witness_LinkMessagesAreBuiltAndRead :
    (0x81 + (0x01 : Byte).toNat + (0x7E : Byte).toNat) % 256 = 0
      ∧ readAnswer? (.command .lift) (data [0x81, 0x01, 0x7E]) = some (.refused 0x01)
      ∧ readAnswer? (.command .lift) (data [0x80, 0x80]) = some .ack ∧ readAnswer? (.command .lift) (data [0x80, 0x81]) = none
      ∧ answerLength (firstByte (data [0x80, 0x40, 0x40])) ≠ some (data [0x80, 0x40, 0x40]).length
      ∧ readAnswer? (.command .lift) (data [0x80, 0x40, 0x40]) = none ∧ firstByte (data [0x80, 0x80]) = 0x80
      ∧ readAnswer? .revival (data [0x80, 0x80]) = none
      ∧ firstByte (data [0x90, 0x02, 0x02, 0x07, 0xFF, 0x02, 0x01, 0x00, 0x63]) = 0x90
      ∧ readAnswer? .busyPoll (data [0x90, 0x02, 0x02, 0x07, 0xFF, 0x02, 0x01, 0x00, 0x63]) = some (.status
        { motion := .done, last := some 2, label := .bin 2047, position := some .park, code := 0 }) := by decide

theorem witness_LinkGrantBeginsOneExchange :
    let sent := (underWay .fetch .seeking (.travel 0) .sent).setSlot 0 (some (.command (.travel 0) false))
    sent.alc.exchange = none ∧ sent.nextGrant? grantClasses = some (.two, 0) ∧ sent.staleRevival 0 = false
      ∧ wing.nextGrant? grantClasses = some (.four, 0)
      ∧ (wing.setSlot 1 (some .revival)).nextGrant? grantClasses = some (.three, 1)
      ∧ (wing.putShuttle 0 (someShuttle .busy (some ⟨.lift, .accepted, false⟩) none)).nextGrant? grantClasses = some (.three, 0)
      ∧ (wing.setSlot 0 (some (.command .park true))).nextGrant? grantClasses = some (.one, 0)
      ∧ (let s := (wing.putShuttle 0 (someShuttle .idle none none)).setSlot 0 (some .hostRevival)
        s.nextGrant? grantClasses = some (.three, 0) ∧ s.staleRevival 0 = true)
      ∧ (talking .busyPoll wing).alc.exchange.isSome = true
      ∧ (let s := { wing with alc.shuttles := Vector.replicate 6 (someShuttle .idle none none) }
        [GrantClass.one, .two, .three, .four].all (fun c => aisles.all fun a => !s.sends c a) = true
          ∧ s.nextGrant? grantClasses = none)
      ∧ (let t := wing.beginExchange .four 5
        t.alc.line.length = 45 ∧ t.alc.line.take 11 = ([false, false, true, true, false, false, false, false, false, true, true].map
            fun b => ⟨true, b⟩)
          ∧ t.ldir = false ∧ t.ltx = true ∧ t.alc.last4 = 5 ∧ (t.shuttle 5).pollWait = some 2) := by decide

theorem witness_ExchangesEndByTheirAnswer :
    (after (.answerReceived (data [0x80, 0x80])) (talking (.command .lift) (underWay .fetch .lifting .lift .sent))).alc.exchange = none
      ∧ readAnswer? (.command .lift) (data [0x80, 0x80]) = some .ack ∧ readAnswer? .busyPoll (data [0x80, 0x80]) = none
      ∧ wing.alc.exchange = none ∧ wing.phase = .running := by decide

theorem witness_CommandAnswerDecidesTheCommand :
    let s := talking (.command .lift) (underWay .fetch .lifting .lift .sent)
    s.zoneAlarm (zoneOf 0) = false ∧ (s.shuttle 0).command = some ⟨.lift, .sent, false⟩ ∧ (s.shuttle 0).silence + 1 < 3
      ∧ (((after (.answerReceived (data [0x80, 0x80])) s).shuttle 0).command = some ⟨.lift, .accepted, false⟩)
      ∧ s.currentOrder? 0 = some (4, someOrder .fetch (.run .lifting) none)
      ∧ (s.faultShuttle 0 9).order? 4 = some (someOrder .fetch (.halted ⟨.lifting, .lift, false, .fault⟩) none)
      ∧ ((s.faultShuttle 0 9).faultShuttle 0 8).currentOrder? 0
        = some (4, someOrder .fetch (.halted ⟨.lifting, .lift, false, .fault⟩) none)
      ∧ ((wing.setSlot 1 (some .resume)).faultShuttle 1 0).win.code = .shuttleFaulted
      ∧ ((wing.setSlot 1 (some .hostRevival)).faultShuttle 1 9).win.a.a1 = 9 := by decide

theorem witness_CommandAnswerDecidesTheCommand_alarm :
    let s := talking (.command .lift) ((underWay .fetch .lifting .lift .sent).setZoneState 0 (.alarm 1))
    let t := after (.answerReceived (data [0x80, 0x80])) s
    s.zoneAlarm (zoneOf 0) = true ∧ (s.shuttle 0).state = .busy
      ∧ (t.shuttle 0).command = some ⟨.park, .sent, true⟩ ∧ t.slot 0 = some (.command .park true) := by decide

theorem witness_PollAnswerDrivesTheMotion :
    let done : StatusAnswer := { statusIdle with motion := .done, last := some 2 }
    let travelled : StatusAnswer := { statusIdle with motion := .done, last := some 1 }
    done.shows .lift = true ∧ travelled.shows (.travel 0) = true ∧ travelled.shows (.travel 1) = false
      ∧ statusIdle.shows .lift = false
      ∧ ((underWay .fetch .lifting .lift .accepted).shuttle 0).command = some ⟨.lift, .accepted, false⟩
      ∧ ((underWay .fetch .handing .handOff .unconfirmed).shuttle 0).command = some ⟨.handOff, .unconfirmed, false⟩
      ∧ (zoned 3 .sealed).zoneState 3 ≠ .normal ∧ Motion.handOff.atPort = true ∧ Motion.lift.atPort = false
      ∧ (wing.shuttle 0).command = none ∧ ({ statusIdle with motion := .fault } : StatusAnswer).motion = .fault
      ∧ ((underWay .fetch .lifting .lift .sent).shuttle 0).command = some ⟨.lift, .sent, false⟩
      ∧ (underWay .fetch .lifting .lift .accepted).currentOrder? 0 = some (4, someOrder .fetch (.run .lifting) none)
      ∧ ((wing.completeCommand 0 ⟨.park, .accepted, true⟩ .none).shuttle 0).state = .parked
      ∧ ((wing.completeCommand 0 ⟨.park, .accepted, false⟩ .none).shuttle 0).state = .idle := by decide

theorem witness_SilenceAndOverrunStopTheShuttle :
    let s (n : Nat) := (underWay .fetch .lifting .lift .accepted).changeShuttle 0 fun r => { r with silence := n, deadline := some 1 }
    ((s 1).shuttle 0).silence < 2 ∧ 2 ≤ ((s 2).shuttle 0).silence ∧ ((s 2).shuttle 0).state = .busy
      ∧ (s 2).currentOrder? 0 = some (4, someOrder .fetch (.run .lifting) none)
      ∧ (s 2).stageCommand? (someOrder .fetch (.run .lifting) none) .lifting = some .lift
      ∧ ((s 2).shuttle 0).deadline = some 1 ∧ (wing.shuttle 0).deadline = none ∧ (wing.shuttle 0).state = .offline
      ∧ ((after (.motionDeadlineExpiry 0) (s 0)).shuttle 0).state = .faulted := by decide

theorem witness_SilenceAndOverrunStopTheShuttle_results :
    let s := (underWay .fetch .lifting .lift .accepted).changeShuttle 0 fun r => { r with silence := 2, deadline := some 1 }
    let x : Exchange := { shuttle := 0, kind := .busyPoll, use := .full, sent := ExchangeKind.chars 0 .busyPoll }
    let lift := captured { kind := .linkSilent, shuttle := some 0, order := some 4, bin := some 0, stage := some .lifting, code := none }
    (s.endExchange x none).au.fault = some (lift none) ∧ (s.overrun 0).au.fault.map (·.first.kind) = some .motionOverdue
      ∧ ((s.endExchange { x with use := .silenceAndPosition } none).shuttle 0).state = .offline
      ∧ ((s.endExchange { x with kind := .command .lift, use := .silenceAndPosition } (some .ack)).shuttle 0).silence = 0
      ∧ ((s.endExchange { x with use := .discard } none).shuttle 0).silence = 2 := by decide

theorem witness_PollAndRetryWaitsEnd :
    let s := (zoned 0 .recovery).putShuttle 0 { someShuttle .parked none none with revivalRetry := some 1 }
    (s.shuttle 0).revivalRetry.isSome = true ∧ (s.shuttle 0).state = .parked ∧ s.slot 0 = none
      ∧ (after (.revivalRetryDue 0) s).slot 0 = some .revival ∧ (wing.shuttle 0).revivalRetry = none
      ∧ ((after (.offlinePollDue 0) s).shuttle 0).pollWait = none := by decide

theorem witness_RevivalReadsWhatTheShuttleHolds :
    statusIdle.label = .none ∧ (wing.binRec? 0).isSome = true ∧ wing.homeAisle 0 = 0 ∧ Place.home.onBoardFrom 0 = true
      ∧ wing.freeEntry? = some 0 ∧ wing.binRec? 5 = none ∧ Place.crossing.onBoardFrom 0 = false
      ∧ ((wing.revive 0 (some (.status { statusIdle with label := .bin 0 }))).2.shuttle 0).carried = some 0
      ∧ (let r : Order := { someOrder .restore (.run .queued) none with source := .recovery }
        (ordered r).isRestoreFor 4 0 0 = true ∧ ((ordered r).binRec? 0).map (·.holder) = some (some 4)
          ∧ (ordered (someOrder .fetch (.run .queued) none)).isRestoreFor 4 0 0 = false)
      ∧ ((wing.revive 0 (some (.status { statusIdle with label := .bin 5 }))).2.shuttle 0).state = .faulted
      ∧ ((wing.revive 0 (some (.status { statusIdle with label := .unreadable }))).2.shuttle 0).state = .faulted
      ∧ ((wing.revive 0 (some (.status { statusIdle with motion := .moving }))).2.shuttle 0).state = .offline := by decide

theorem witness_RevivalReadsWhatTheShuttleHolds_carried :
    let s := wing.putShuttle 0 { resetShuttle with carried := some 3 }
    let read (label : Label) := (s.revive 0 (some (.status { statusIdle with label := label }))).2
    let place (t : State) (b : BinNo) := (t.binRec? b).map (·.place)
    (s.shuttle 0).carried = some 3 ∧ place (read (.bin 0)) 3 = some .unverified ∧ place (read .unreadable) 3 = some .unverified
      ∧ s.homeAisle 126 ≠ 0 ∧ place (read (.bin 126)) 126 = some .unverified ∧ place (read (.bin 126)) 3 = some .unverified
      ∧ s.homeAisle 1 = 0 ∧ (read (.bin 1)).binRec? 1 = s.binRec? 1 := by decide

theorem witness_RevivalReadsWhatTheShuttleHolds_ends :
    let s := talking .revival (wing.putShuttle 0 (someShuttle .parked none none))
    let x : Exchange := { shuttle := 0, kind := .revival, use := .full, sent := ExchangeKind.chars 0 .revival }
    let moving : LinkAnswer := .status { statusIdle with motion := .moving }
    s.alc.exchange = some x
      ∧ ((s.endExchange x (some moving)).shuttle 0).revivalRetry = some 2
      ∧ ((s.endExchange x (some (.status statusIdle))).shuttle 0).state = .idle
      ∧ ((s.endExchange { x with kind := .offlinePoll } none).shuttle 0).state = .offline
      ∧ ((s.endExchange { x with use := .silenceAndPosition } none).shuttle 0).silence = 1
      ∧ ((s.endExchange { x with use := .discard } none).shuttle 0).silence = 0
      ∧ (((underWay .stow .takingOn .takeOn .unconfirmed).withdrawPortCommand 0).shuttle 0).command = none := by decide

theorem witness_LabelChecksSettleTheBin :
    (ordered (someOrder .fetch (.run .lifting) none)).order? 4 = some (someOrder .fetch (.run .lifting) none)
      ∧ ((ordered (someOrder .fetch (.run .lifting) none)).binRec? 0).isSome = true
      ∧ (3 : BinNo) ≠ (someOrder .fetch (.run .lifting) none).bin ∧ (wing.binRec? 3).isSome = true := by decide

theorem witness_LabelChecksSettleTheBin_captures :
    let s := underWay .fetch .lifting .lift .accepted
    let r := someOrder .fetch (.run .lifting) none
    let seen (stage : RunStage) (label : Label) := (s.stageDone 0 4 r stage label).au.fault
    let check (kind : FaultKind) (stage : RunStage) := some (captured
      { kind := kind, shuttle := some 0, order := some 4, bin := some 0, stage := some stage, code := none } none)
    s.au.fault = none ∧ seen .lifting .unreadable = check .labelUnreadable .lifting
      ∧ seen .lifting (.bin 3) = check .labelMismatch .lifting ∧ seen .probing .unreadable = check .labelUnreadable .probing
      ∧ seen .probing (.bin 3) = check .labelMismatch .probing ∧ seen .probing (.bin 0) = none ∧ seen .probing .none = none
      ∧ seen .lifting (.bin 0) = none ∧ seen .lifting .none = none := by decide

/-- Order 4 under the cancel mark in a stage, on shuttle 0. -/
def cancelled (stage : RunStage) : State × Order :=
  let r : Order := { someOrder .fetch (.run stage) (some (.pick 0)) with cancel := true }
  ((ordered r).putShuttle 0 (someShuttle .busy none (some 4)), r)

theorem witness_LabelChecksSettleTheBin_stages :
    let run (stage : RunStage) : State × Order :=
      ((underWay .fetch stage .toPort .accepted), someOrder .fetch (.run stage) none)
    let done (q : State × Order) (stage : RunStage) (label : Label) := q.1.stageDone 0 4 q.2 stage label
    (run .seeking).1.order? 4 = some (run .seeking).2 ∧ (done (run .seeking) .seeking .none).slot 0 = some (.command .lift false)
      ∧ (cancelled .seeking).1.order? 4 = some (cancelled .seeking).2
      ∧ ((done (cancelled .seeking) .seeking .none).order? 4).map (·.stage) = some (.finished .cancelled)
      ∧ (done (cancelled .lifting) .lifting (.bin 0)).slot 0 = some (.command .lower false)
      ∧ ((done (cancelled .lifting) .lifting .none).order? 4).map (·.stage) = some (.finished .cancelled)
      ∧ (done (cancelled .carrying) .carrying .none).slot 0 = some (.command (.travel 0) false)
      ∧ (done (run .carrying) .carrying .none).slot 0 = some (.command .handOff false)
      ∧ ((done ((run .carrying).1.setOutPlace 0 (some 3), (run .carrying).2) .carrying .none).order? 4).map (·.stage)
        = some (.run .holding)
      ∧ (done (run .handing) .handing .none).outPlace 0 = some 0
      ∧ ((done (run .takingOn) .takingOn .none).shuttle 0).carried = some 0
      ∧ (done (run .returning) .returning .none).slot 0 = some (.command .lower false)
      ∧ ((done (run .lowering) .lowering .none).order? 4).map (·.stage) = some (.finished .ok)
      ∧ (let r : Order := { someOrder .fetch (.run .lowering) none with pendingOutcome := some .unreadable }
        ((done (ordered r, r) .lowering .none).order? 4) = some (someOrder .fetch (.finished .unreadable) none)) := by decide

theorem witness_LaneGrantsInRotation :
    let s := ((ordered (someOrder .fetch (.run .waitingLane) (some (.pick 1)))).setOutPlace 0 (some 0)).setPlace 0 (.portOut 0)
    let t := ((ordered (someOrder .stow (.run .waitingLane) none)).setStationOut 2 (some 0)).setPlace 0 (.stationOut 2)
    s.request? (.port 0) = some (0, 4, .station (.pick 1)) ∧ t.request? (.station 2) = some (0, 4, .portIn 0)
      ∧ t.inPlace 0 = none ∧ s.zoneState 3 = .normal ∧ s.lc.crossing = none
      ∧ (zoned 3 .sealed).zoneState 3 ≠ .normal
      ∧ requesters.all (fun q => (wing.request? q).isNone) = true ∧ wing.lookForCrossing = wing := by decide

theorem witness_CrossingsEndByTheFirstEvent :
    let pick := crossing (.station (.pick 1)) (.running 30) .fetch (some (.pick 1))
    let ret := (crossing (.station (.ret .hold)) .stopped .fetch (some (.ret .hold))).setPosition .hold (.arriving 4)
    let port := crossing (.portIn 0) (.running 1) .stow none
    pick.presentationQueue 1 = [] ∧ (after .ldone pick).presentationQueue 1 = [0]
      ∧ ret.position .hold = .arriving 4 ∧ (after .ldone ret).position .hold = .presented 0
      ∧ (after .ldone port).inPlace 0 = some 0 ∧ (after .lflt pick).lc.crossing = none
      ∧ (after .crossingDeadlineExpiry port).lc.crossing = none ∧ (after .crossingDeadlineExpiry ret).lc.crossing.isSome = true
      ∧ wing.lc.crossing = none := by decide

theorem witness_StationsOpenCloseAndAreSupervised :
    answerAfter .openStation (asked (wing.setStationState 4 (.fireHeld false)) 4 0 0 0 0 0 0) = some { a0 := 0x0201 }
      ∧ answerAfter .closeStation (asked wing 4 0 0 0 0 0 0) = some { a0 := 0x00FF }
      ∧ (after .closeStation (asked wing 4 0 0 0 0 0 0)).position .hold = .empty
      ∧ answerAfter .closeStation (asked wing 3 0 0 0 0 0 0) = some { a0 := 0x00FF }
      ∧ answerAfter .setStation (asked wing 0 1 0 0 0 0 0) = some { a0 := 0 }
      ∧ codeAfter .setStation (asked wing 4 2 0 0 0 0 0) = some .badOperand := by decide

theorem witness_DismissSendsThePresentedBinOut :
    answerAfter .dismiss (asked wing 0 3 0 0 0 0 0) = some { a0 := 0, a1 := 0xFFFF }
      ∧ codeAfter .dismiss (asked wing 0 4 0 0 0 0 0) = some .badOperand
      ∧ codeAfter .dismiss (asked wing 3 3 0 0 0 0 0) = some .notPresented
      ∧ codeAfter .dismiss (asked (wing.setStationOut 0 (some 3)) 0 0 0 0 0 0 0) = some .outBusy := by decide

theorem witness_ReclaimGivesTheBinAnOrder :
    let out := (wing.setOutPlace 5 (some 0)).setPlace 0 (.portOut 5)
    let inn := (wing.setInPlace 0 (some 0)).setPlace 0 (.portIn 0)
    let stn := (wing.setStationOut 4 (some 0)).setPlace 0 (.stationOut 4)
    answerAfter .reclaimPlace (asked out 3 0 5 3 0 0 0) = some { a0 := 0, a1 := 0 }
      ∧ codeAfter .reclaimPlace (asked inn 5 1 0 3 0 0 0) = some .ok ∧ codeAfter .reclaimPlace (asked stn 5 2 4 3 0 0 0) = some .ok
      ∧ codeAfter .reclaimPlace (asked wing 4 2 4 3 0 0 0) = some .noRecord
      ∧ codeAfter .reclaimPlace (asked wing 0 0 6 0 0 0 0) = some .badOperand
      ∧ codeAfter .reclaimPlace (asked wing 5 0 5 0 0 0 0) = some .badOperand
      ∧ codeAfter .reclaimPlace (asked (zoned 3 .recovery) 5 2 4 3 0 0 0) = some .noRecord := by decide

theorem witness_StationAndLaneReadsAnswer :
    answerAfter .readStation (asked wing 0 3 0 0 0 0 0) = some { a0 := 0xFFFF, a1 := 0xFFFF, a2 := 0xFFFF, a3 := 0xFFFF }
      ∧ answerAfter .readStation (asked wing 0 4 0 0 0 0 0) = some { a0 := 0xFFFF, a1 := 2, a2 := 0xFFFF, a3 := 0x0301 }
      ∧ codeAfter .readStation (asked wing 0 5 0 0 0 0 0) = some .badOperand
      ∧ answerAfter .readLane (asked wing 0 5 0 0 0 0 0) = some { a0 := 0xFFFF, a1 := 0xFFFF, a2 := 0xFFFF, a3 := 0xFFFF }
      ∧ codeAfter .readLane (asked wing 0 6 0 0 0 0 0) = some .badOperand
      ∧ answerAfter .readLane (asked (crossing (.portIn 0) .stopped .stow none) 0 0xFFFF 0 0 0 0 0)
        = some { a0 := 0x0101, a1 := 0, a2 := 0x0402, a3 := 10 } := by decide

theorem witness_PickAndPutBackMoveTheItem :
    answerAfter .pick (asked wing 0 0 7 0 0 0 0) = some { a0 := 1, a1 := 0x0002, a2 := 0 }
      ∧ codeAfter .pick (asked wing 0 0 12 0 0 0 0) = some .notPresented ∧ codeAfter .pick (asked wing 3 0 7 0 0 0 0) = some .notPresented
      ∧ answerAfter .putBack (asked wing 0 0 10 0 0 0 0) = some { a0 := 1, a1 := 2, a2 := 0 }
      ∧ codeAfter .putBack (asked wing 0 0 7 0 0 0 0) = some .wrongState
      ∧ codeAfter .putBack (asked (wing.setPresentationQueue 0 []) 0 0 10 0 0 0 0) = some .notPresented := by decide

theorem witness_ChargeLendsToThePatron :
    answerAfter .charge (asked wing 0 0 10 0 5 28 0) = some { a0 := 28, a1 := 2, a2 := 1, a3 := 0 }
      ∧ codeAfter .charge (asked wing 0 0 10 0 5 29 0) = some .badOperand
      ∧ codeAfter .charge (asked wing 0 0 10 0 4 1 0) = some .noRecord ∧ codeAfter .charge (asked wing 0 0 7 0 5 1 0) = some .wrongState
      ∧ codeAfter .charge (asked { wing with tab.day := 11 } 0 0 10 0 5 1 0) = some .overdue := by decide +kernel

/-- CHARGE at an OPEN station without a presented bin, under each reading of R39 and R115, and R110 and R117. -/
theorem test_charge_withoutBin : ∀ needsBin : Bool,
    ((asked (wing.setPresentationQueue 0 []) 0 0 10 0 5 28 0).takeRequest 0x42 (chargeUnder needsBin)).win.code
      = if needsBin then .notPresented else .ok := by decide +kernel

theorem witness_RenewMovesTheLoan :
    answerAfter .renew (asked wing 3 0 8 28 0 0 0) = some { a0 := 28, a1 := 1, a2 := 0 }
      ∧ codeAfter .renew (asked wing 3 0 8 29 0 0 0) = some .badOperand ∧ codeAfter .renew (asked wing 3 0 8 9 0 0 0) = some .badOperand
      ∧ codeAfter .renew (asked wing 3 0 7 1 0 0 0) = some .wrongState
      ∧ codeAfter .renew (asked (wing.putItem 8 ⟨.onLoan 5 10 3, []⟩) 3 0 8 28 0 0 0) = some .renewLimit := by decide +kernel

theorem witness_DeclareLostEndsTheItem :
    answerAfter .declareLost (asked wing 0 0 8 0 0 0 0) = some { a0 := 0, a1 := 0, a2 := 5, a3 := 0 }
      ∧ answerAfter .declareLost (asked (wing.setStationState 3 (.fireHeld true)) 3 0 12 0 0 0 0) = some { a0 := 1, a1 := 3, a3 := 1 }
      ∧ codeAfter .declareLost (asked wing 0 0 7 0 0 0 0) = some .wrongState
      ∧ codeAfter .declareLost (asked wing 0 0 9 0 0 0 0) = some .wrongState := by decide

theorem witness_HoldsArePlacedAndCancelled :
    answerAfter .placeHold (asked wing 0 0 7 0 6 0 0) = some { a0 := 0, a1 := 0, a2 := 0xFFFF }
      ∧ answerAfter .placeHold (asked wing 0 0 8 0 6 0 0) = some { a0 := 0, a1 := 3, a2 := 7 }
      ∧ codeAfter .placeHold (asked wing 0 0 7 0 4 0 0) = some .noRecord ∧ codeAfter .placeHold (asked wing 0 0 12 0 6 0 0) = some .duplicate
      ∧ codeAfter .placeHold (asked wing 0 0 8 0 5 0 0) = some .wrongState
      ∧ answerAfter .cancelHold (asked wing 0 0 12 0 6 0 0) = some { a0 := 0, a1 := 0, a2 := 0, a3 := 0 }
      ∧ codeAfter .cancelHold (asked wing 0 0 7 0 6 0 0) = some .noRecord := by decide +kernel

theorem witness_RecordsReadBackAsWritten :
    tableSorted wing.tab.items = true ∧ tableSorted wing.tab.patrons = true ∧ tableSorted wing.tab.bins = true := by decide

theorem witness_ReturnsArePlacedOrDropped :
    answerAfter .returnItem (asked wing 4 0 8 0 0 0 0) = some { a0 := 0x0300, a1 := 2, a2 := 0x8003, a3 := 5 }
      ∧ codeAfter .returnItem (asked wing 4 0 7 0 0 0 0) = some .wrongState
      ∧ codeAfter .returnItem (asked wing 4 0 9 0 0 0 0) = some .duplicate
      ∧ codeAfter .returnItem (asked wing 4 0xFF 0xFFFF 0 0 0 0) = some .noRecord
      ∧ codeAfter .returnItem (asked (wing.setStationState 4 (.fireHeld true)) 4 0 8 0 0 0 0) = some .zoneLocked
      ∧ answerAfter .returnItem (asked (wing.putItem 8 ⟨.onLoan 5 10 0, [6]⟩) 4 0 8 0 0 0 0)
        = some { a0 := 0x0301, a1 := 0xFFFF, a2 := 0x0102, a3 := 5 }
      ∧ answerAfter .placeDropped (asked wing 4 0 9 0 0 0 0) = some { a0 := 0, a1 := 2, a2 := 0x8003, a3 := 0 }
      ∧ codeAfter .placeDropped (asked wing 4 0 8 0 0 0 0) = some .wrongState
      ∧ codeAfter .placeDropped (asked (wing.setPosition .intake .empty) 4 0 9 0 0 0 0) = some .notPresented
      ∧ codeAfter .placeDropped (asked (wing.setPosition .intake (.fullWaiting 2)) 4 0 9 0 0 0 0) = some .binFull := by decide

theorem witness_PositionsCloseAndDropListReads :
    answerAfter .closePosition (asked wing 4 0 0 0 0 0 0) = some { a0 := 0, a1 := 1 }
      ∧ answerAfter .closePosition (asked ((wing.setPosition .hold (.fullWaiting 2)).setStationOut 4 (some 3)) 4 1 0 0 0 0 0)
        = some { a0 := 0xFFFF, a1 := 4 }
      ∧ codeAfter .closePosition (asked wing 4 1 0 0 0 0 0) = some .notPresented
      ∧ codeAfter .closePosition (asked wing 4 2 0 0 0 0 0) = some .badOperand
      ∧ codeAfter .closePosition (asked (wing.setStationState 4 (.fireHeld true)) 4 1 0 0 0 0 0) = some .zoneLocked
      ∧ answerAfter .readDropList (asked wing 0 0 0 0 0 0 0) = some { a0 := 1, a1 := 0, a2 := 9, a3 := 0 }
      ∧ answerAfter .readDropList (asked wing 0 31 0 0 0 0 0) = some { a0 := 1, a3 := 0xFFFF }
      ∧ codeAfter .readDropList (asked wing 0 32 0 0 0 0 0) = some .badOperand := by decide

theorem witness_PositionsCallAndDismissBins :
    let full := wing.setPosition .intake (.fullWaiting 2)
    full.stationOut 4 = none ∧ (full.stationState 4).isFireHeld = false ∧ full.freeEntry? = some 0
      ∧ (full.tryDismissal .intake).stationOut 4 = some 2
      ∧ tableSorted wing.tab.bins = true ∧ wing.inPool .hold 126 (someBin .hold .home 0) = true ∧ wing.poolFirst? .intake = none
      ∧ wing.position .hold = .wanting ∧ wing.poolFirst? .hold = some 126 ∧ (wing.tryFetch .hold).position .hold = .arriving 0
      ∧ ((wing.setPosition .intake .empty).tryFetch .intake).position .intake = .wanting
      ∧ (wing.setPosition .intake .empty).fetchMark .intake = false
      ∧ (let taken := { full.setPosition .hold .empty with
            ou.orders := Vector.replicate 32 (some (someOrder .fetch (.run .queued) none)), ou.quiet := .quiet }
        taken.freeEntry? = none ∧ (taken.tryDismissal .intake).dismissalMark .intake = true
          ∧ (taken.tryFetch .hold).fetchMark .hold = true ∧ (taken.tryFetch .hold).ou.quiet = .active) := by decide

theorem witness_AlarmLineTakesTheZoneIntoAlarm :
    let s := underWay .fetch .lifting .lift .accepted
    s.zoneState 0 = .normal ∧ s.currentOrder? 0 = some (4, someOrder .fetch (.run .lifting) none)
      ∧ s.commandExchange 0 = false ∧ ((s.enterAlarm 0).shuttle 0).command = some ⟨.park, .sent, true⟩
      ∧ (after (.alarmLineChange 0 true) s).zoneState 0 = .alarm 45
      ∧ (after (.alarmLineChange 1 true) s).zoneState 1 = .sealed ∧ (after (.alarmLineChange 1 false) s).zoneState 1 = .normal
      ∧ (after (.alarmLineChange 3 true) (crossing (.portIn 0) (.running 1) .stow none)).stationState 0 = .fireHeld true
      ∧ ({ wing with phase := .starting } : State).phase = .starting
      ∧ (zoned 2 .recovery).zoneState 2 = .recovery
      ∧ ((underWay .fetch .handing .handOff .sent).setSlot 0 (some (.command .handOff false))).slot 0
        = some (.command .handOff false) := by decide

theorem witness_AlarmLineTakesTheZoneIntoAlarm_messages :
    let parking := wing.putShuttle 0 (someShuttle .busy (some ⟨.park, .accepted, false⟩) none)
    let lifting := talking (.command .lift) (underWay .fetch .lifting .lift .sent)
    let handing := (underWay .fetch .handing .handOff .sent).setSlot 0 (some (.command .handOff false))
    let waits (m : Message) := ((wing.setSlot 0 (some m)).enterAlarm 0).win.code
    ((parking.enterAlarm 0).shuttle 0).command = some ⟨.park, .accepted, true⟩ ∧ parking.slot 0 = none
      ∧ ((parking.setSlot 0 (some (.command .park false))).enterAlarm 0).slot 0 = some (.command .park true)
      ∧ lifting.commandExchange 0 = true ∧ ((lifting.enterAlarm 0).shuttle 0).command = some ⟨.lift, .sent, false⟩
      ∧ waits .resume = .wrongState ∧ waits .hostRevival = .zoneLocked ∧ wing.slot 1 = none
      ∧ (((talking .resume wing).enterAlarm 0).alc.exchange.map (·.use)) = some .silenceAndPosition
      ∧ handing.currentOrder? 0 = some (4, someOrder .fetch (.run .handing) none)
      ∧ (handing.enterAlarm 3).order? 4 = some (someOrder .fetch (.run .holding) none)
      ∧ ((handing.enterAlarm 3).shuttle 0).command = none ∧ (handing.enterAlarm 3).slot 0 = none := by decide

theorem witness_ZoneSealsByConditionOrDeadline :
    let s := (underWay .fetch .lifting .lift .accepted).setZoneState 0 (.alarm 1)
    s.zoneAlarm 0 = true ∧ s.sealable 0 = false ∧ wing.sealable 3 = true ∧ wing.sealable 0 = true ∧ wing.zoneAlarm 0 = false
      ∧ (underWay .fetch .handing .handOff .accepted).sealable 3 = false
      ∧ ((after (.zoneDeadlineExpiry 0) s).shuttle 0).state = .caught
      ∧ (after (.zoneDeadlineExpiry 0) s).order? 4 = some (someOrder .fetch (.finished .fire) none)
      ∧ ((crossing (.portIn 0) .stopped .stow none).sealZone 3).binRec? 0
        = some { someBin .collection .stranded 0 with holder := some 4 } := by decide

theorem witness_ZoneSealsByConditionOrDeadline_shuttles :
    let s := talking .busyPoll ((underWay .fetch .lifting .lift .accepted).setZoneState 0 (.alarm 1))
    (s.expireZone 0).au.fault = some (captured
        { kind := .caught, shuttle := some 0, order := some 4, bin := some 0, stage := some .lifting, code := none } none)
      ∧ (someOrder .fetch (.run .lifting) none).aisle = 0 ∧ ((s.sealZone 0).shuttle 0).order = none
      ∧ ((s.sealZone 0).binRec? 0).map (·.holder) = some none
      ∧ (s.sealZone 0).alc.exchange.map (·.use) = some .discard ∧ (s.sealZone 1).alc.exchange.map (·.use) = some .full := by decide

theorem witness_ZoneDeadlinesAreSetAndRead :
    answerAfter .setDeadline (asked wing 0 3 240 0 0 0 0) = some { a0 := 45 } ∧ codeAfter .setDeadline (asked wing 0 0 10 0 0 0 0) = some .ok
      ∧ codeAfter .setDeadline (asked wing 0 0 9 0 0 0 0) = some .badOperand
      ∧ codeAfter .setDeadline (asked wing 0 0 241 0 0 0 0) = some .badOperand
      ∧ codeAfter .setDeadline (asked wing 0 4 45 0 0 0 0) = some .badOperand
      ∧ codeAfter .setDeadline (asked (zoned 3 .sealed) 0 3 45 0 0 0 0) = some .wrongState
      ∧ answerAfter .readZone (asked (zoned 3 (.alarm 7)) 0 3 0 0 0 0 0) = some { a0 := 0x0100, a1 := 45, a2 := 7, a3 := 0 }
      ∧ answerAfter .readZone (asked (underWay .fetch .lifting .lift .sent) 0 0 0 0 0 0 0)
        = some { a0 := 0, a1 := 45, a2 := 0xFFFF, a3 := 1 }
      ∧ codeAfter .readZone (asked wing 0 4 0 0 0 0 0) = some .badOperand := by decide

theorem witness_FaultRecordKeepsItsFirstFault :
    let s := wing.capture { kind := .caught, shuttle := some 5, order := some 31, bin := none, stage := some .probing, code := none }
    wing.au.fault = none ∧ codeAfter .clearFault wing = some .ok
      ∧ answerAfter .readFault s = some { a0 := 0x9A07, a1 := 0x051F, a2 := 0xFFFF, a3 := 0x0BFF }
      ∧ (after .clearFault s).au.fault = none ∧ s.au.fault.isSome = true := by decide

theorem witness_ReleaseTakesThreeWrites :
    wing.win.release = .none ∧ codeAfter (.releaseWrite 4) wing = some .sequenceRefused
      ∧ codeAfter (.releaseWrite 0xFFFF) { wing with win.release := .first 0 } = some .ok
      ∧ codeAfter (.releaseWrite 0xFFFB) { wing with win.release := .first 3 } = some .sequenceRefused
      ∧ codeAfter (.releaseWrite 0) { wing with win.release := .second 0 } = some .sequenceRefused
      ∧ codeAfter (.releaseWrite 2) { zoned 2 .sealed with win.release := .second 2 } = some .zoneReleased
      ∧ (((zoned 0 .sealed).putShuttle 0 (someShuttle .caught none none)).releaseZone 0).slot 0 = some .revival
      ∧ ((crossing (.portIn 0) .stopped .stow none).releaseZone 3).lc.lgoPulses = 1
      ∧ (zoned 1 .recovery).recovered 1 = true ∧ wing.recovered 3 = true
      ∧ (crossing (.portIn 0) .stopped .stow none).recovered 3 = false := by decide

theorem witness_BusyWindowCollides :
    ({ wing with win.busy := true } : State).windowFree = false ∧ ({ wing with phase := .starting } : State).windowFree = false
      ∧ requestCode? .resetController = some 0x70 := by decide

theorem witness_WindowCellsReadAndWrite :
    requestCode? .enrolBin = some 1 ∧ codeAfter (.undefinedRequest 0xFFFF) wing = some .badOperand
      ∧ (asked wing 3 0 0 0 0 0 0).readCell 18 = 0xFFFF ∧ (asked wing 0 0 0 0 0 0 0).readCell 18 = 1
      ∧ (asked wing 4 0 0 0 0 0 0).readCell 22 = 2 ∧ (asked wing 5 0 0 0 0 0 0).readCell 17 = 0
      ∧ (asked wing 0 0 0 0 0 0 9).readCell 8 = 9
      ∧ ({ wing with win.release := .second 3 } : State).readCell 16 = 0x32
      ∧ ({ wing with win.enable := 0x7FF, win.levels := 0x3F } : State).readCell 14 = 0x7FF
      ∧ ({ wing with win.enable := 0x7FF, win.levels := 0x3F } : State).readCell 15 = 0x3F
      ∧ ({ wing with win.enable := 0x7FF, au.latches := 2 } : State).readCell 13 = 2
      ∧ ({ wing with phase := .starting } : State).readCell 17 = 0 := by decide

theorem witness_RefusedRequestChangesWindowOnly :
    requestCode? .collect = some 0x21 ∧ (after .collect wing).win.busy = false ∧ (after .collect wing).win.code.refuses = true := by
  decide

theorem witness_AttentionServesTheHighestGroup :
    let s : State := { wing with au.latches := 0b10000000011, win.enable := 0x7FF, win.levels := 0x3F }
    s.signalled .woken = true ∧ s.signalled .zoneAlarm = true ∧ s.causeNumber = 1 ∧ s.levelOf .d = 3
      ∧ s.pendingCause .returnWaiting = true ∧ s.position .intake = .presented 2 ∧ wing.causeNumber = 0
      ∧ (after (.causeWrite 1) s).causeNumber = 2 ∧ (after (.enableWrite 0x400) s).causeNumber = 11
      ∧ (after (.levelsWrite 0) s).levelOf .b = 0 := by decide

theorem witness_SoftResetKeepsTheRecords :
    answerAfter .resetController (crossing (.portIn 0) .stopped .stow none) = some { a0 := 1, a1 := 1 }
      ∧ (zoned 1 (.alarm 3)).softReset.zoneState 1 = .sealed ∧ (zoned 3 .recovery).softReset.zoneState 3 = .normal
      ∧ (wing.setPosition .hold (.arriving 4)).softResetBlocks.position .hold = .empty
      ∧ wing.softResetBlocks.dropList = [9] ∧ wing.softResetBlocks.lc.pointer = 10
      ∧ (wing.beginExchange .four 5).softResetBlocks.alc = resetLinkUnit := by decide

theorem witness_PowerOnResetRebuildsTheState :
    let s := after (.resetAsserted .kept) { wing with fiu.alm := #v[false, false, false, true] }
    s.phase = .starting ∧ s.formatMark = true ∧ (after .startUp s).zoneState 3 = .sealed
      ∧ (after .startUp s).stationState 0 = .fireHeld false ∧ (after .startUp s).dropList = [9]
      ∧ ((after .startUp s).binRec? 1).map (·.place) = some .unverified
      ∧ (after (.resetAsserted .lost) wing).formatMark = false
      ∧ wing.fiu.alm = Vector.replicate 4 false ∧ wing.pending = [] ∧ wing.dataOut = 0 ∧ wing.lc.lgoPulses = 0 := by decide

theorem witness_StepRunsFrontCommand :
    ({ wing with pending := [.audit, .wake] } : State).pending = .audit :: [.wake] ∧ wing.pending = [] ∧ wing.phase = .running
      ∧ (zoned 2 (.alarm 1)).idle.pending = [.zoneDeadlineExpiry 2]
      ∧ (talking .busyPoll wing).idle.pending = [.replyWindowExpiry]
      ∧ (crossing (.portIn 0) (.running 1) .stow none).idle.pending = [.crossingDeadlineExpiry]
      ∧ (wing.putShuttle 5 { resetShuttle with deadline := some 1, pollWait := some 1, revivalRetry := some 1 }).idle.pending
        = [.motionDeadlineExpiry 5, .revivalRetryDue 5, .offlinePollDue 5] := by decide

theorem witness_SafeStatesStaySafe : wing.safe = true ∧ wing.memoryWhole = true ∧ wing.tab.day ≤ 65535 := by decide

theorem witness_SettingsLaw : wing.SettingsLaw :=
  ⟨fun c => by cases c <;> decide, fun z => by revert z; decide, by decide⟩

theorem witness_DropListNamesDroppedItems : wing.memoryWhole = true ∧ wing.DropLaw := by
  refine ⟨by decide, by decide, fun t => ?_⟩
  simp only [wing, State.item?, tableFind, List.mem_singleton]
  constructor
  · rintro rfl; exact ⟨_, rfl, rfl⟩
  · rintro ⟨i, h, hd⟩
    repeat' split at h
    all_goals first | omega | (cases h; done) | (cases h; cases hd; done) | (rename_i h9; exact h9.symm)

/-- One bin with an item SHELVED in it and one PICKED out of it. -/
def counted : State :=
  { State.reset with
    tab := { formattedTables with
      bins := [(1, { someBin .collection (.atStation (.pick 0)) 1 with pickedOut := 1 })]
      items := [(7, ⟨.shelved 1, []⟩), (10, ⟨.picked 0 1, []⟩)] } }

theorem witness_CountsMatchTheItems : counted.memoryWhole = true ∧ counted.CountLaw := by
  refine ⟨by decide, fun b => ?_⟩
  by_cases h : b = 1
  · subst h; exact ⟨rfl, rfl⟩
  · have h1 : ¬ 1 = b.val := fun e => h (Fin.ext (by rw [← e]; rfl))
    have h2 : ((1 : BinNo) == b) = false := by simpa using fun e => h e.symm
    simp [State.binRec?, counted, tableFind, h1, countItems, ItemState.inBin, ItemState.pickedFrom, h2]

end Sys2Proof.Tests
end

section
/-! The one way in which a step changes the state, packaged once: a law that the blocks' work, the settling, the zones' events, the
window's own writes and the evaluation of every request keep is kept by every step but for the two reset commands. -/

namespace Sys2Proof.Machine

/-! ## Requests in the one form -/

/-- Every request row writes its code to REQUEST and is evaluated by the table of R182. -/
theorem exec_request {i : Instr} {n : Nat} (h : requestCode? i = some n) :
    ∃ e, evaluationOf? n = some e ∧ ∀ s, exec i s = .next (s.takeRequest (word n) e) := by
  cases i <;> cases h <;> exact ⟨_, rfl, fun _ => rfl⟩

/-! ## What a reply leaves -/

theorem Reply.All.mono {P Q : State → Prop} (h : ∀ t, P t → Q t) {r : Reply} (hr : r.All P) : r.All Q := by
  cases r with
  | refuse c => trivial
  | answer c a t => exact h t hr
  | wait k t => exact h t hr

theorem Reply.All.and {P Q : State → Prop} {r : Reply} (hp : r.All P) (hq : r.All Q) : r.All fun t => P t ∧ Q t := by
  cases r with
  | refuse c => trivial
  | answer c a t => exact ⟨hp, hq⟩
  | wait k t => exact ⟨hp, hq⟩

/-! ## Laws of a step -/

/-- A law that everything a step is made of keeps, the two reset commands apart. -/
structure StepLaw (P : State → Prop) : Prop where
  /-- The work of the blocks (Laws/Still.lean). -/
  still : ∀ {s t : State}, t.still = s.still → P s → P t
  settle : ∀ {s : State}, P s → P s.settle
  enterAlarm : ∀ {s : State} (z : ZoneNo), P s → P (s.enterAlarm z)
  expireZone : ∀ {s : State} (z : ZoneNo), s.zoneAlarm z = true → P s → P (s.expireZone z)
  releaseZone : ∀ {s : State} (z : ZoneNo), P s → P (s.releaseZone z)
  /-- Clearing latches (R174). -/
  clearLatches : ∀ {s : State} (m : BitVec 11), P s → P { s with au.latches := s.au.latches &&& m }
  /-- A change of level on an alarm line (R142). -/
  setLine : ∀ {s : State} (z : ZoneNo) (active : Bool), P s → P (s.setLine z active)
  /-- The window's own cells, D0–D15, the alarm pins and the queue. -/
  outside : ∀ {s : State} (w : Window) (d : Word) (pins : Vector Bool 4) (q : List Instr),
    P s → P { s with win := w, dataOut := d, fiu.alm := pins, pending := q }
  /-- One second of the clock (log entry 1). -/
  second : ∀ {s : State}, P s → P s.second
  evaluation : ∀ {s : State} {n : Nat} {e : Evaluation}, evaluationOf? n = some e → ∀ o : Operands, P s → (e o s).All P

/-- What an event of a running part keeps is kept where start-up ignores the event (log entry 19). -/
theorem keeps_whenRunning {P : State → Prop} {s : State} {f : State → State} (hf : P s → P (f s)) (hs : P s) :
    P (s.whenRunning f) := by
  unfold State.whenRunning
  split
  · exact hf hs
  · exact hs

namespace StepLaw

/-- Two laws together. -/
theorem and {P Q : State → Prop} (L : StepLaw P) (M : StepLaw Q) : StepLaw fun s => P s ∧ Q s where
  still h := And.imp (L.still h) (M.still h)
  settle := And.imp L.settle M.settle
  enterAlarm z := And.imp (L.enterAlarm z) (M.enterAlarm z)
  expireZone z ha := And.imp (L.expireZone z ha) (M.expireZone z ha)
  releaseZone z := And.imp (L.releaseZone z) (M.releaseZone z)
  clearLatches m := And.imp (L.clearLatches m) (M.clearLatches m)
  setLine z active := And.imp (L.setLine z active) (M.setLine z active)
  outside w d pins q := And.imp (L.outside w d pins q) (M.outside w d pins q)
  second := And.imp L.second M.second
  evaluation he o hs := (L.evaluation he o hs.1).and (M.evaluation he o hs.2)

variable {P : State → Prop} (L : StepLaw P) {s : State}
include L

/-! ### Window accesses -/

theorem collide (hs : P s) : P s.collide := L.outside _ _ _ _ hs

theorem breakRelease (hs : P s) : P s.breakRelease := L.outside _ _ _ _ hs

theorem takeRequest {code : Word} {e : Evaluation} (heval : ∀ {u : State}, P u → (e s.operands u).All P) (hs : P s) :
    P (s.takeRequest code e) :=
  takeRequest_all (fun _ _ _ h => L.outside _ _ _ _ h) (fun _ _ h => L.outside _ _ _ _ h) (fun h => L.outside _ _ _ _ h)
    L.collide heval hs

/-- A write of any value to REQUEST (R163). -/
theorem writeRequest (v : Word) (hs : P s) : P (s.writeRequest v) := by
  refine L.takeRequest (fun hu => ?_) hs
  cases he : evaluationOf? v.toNat with
  | none => trivial
  | some e => exact L.evaluation he _ hu

theorem writeCause (v : Word) (hs : P s) : P (s.writeCause v) := by
  unfold State.writeCause
  split
  · exact L.collide hs
  · exact L.breakRelease (L.clearLatches _ hs)

theorem writeEnable (v : Word) (hs : P s) : P (s.writeEnable v) := by
  unfold State.writeEnable
  split
  · exact L.collide hs
  · exact L.breakRelease (L.outside { s.win with enable := v.setWidth 11 } _ _ _ hs)

theorem writeLevels (v : Word) (hs : P s) : P (s.writeLevels v) := by
  unfold State.writeLevels
  split
  · exact L.collide hs
  · exact L.breakRelease (L.outside { s.win with levels := v.setWidth 6 } _ _ _ hs)

/-- A write to RELEASE writes the window, and its third one may release the zone (R150). -/
theorem writeRelease (v : Word) (hs : P s) : P (s.writeRelease v) := by
  have judged : P (s.judgeRelease v) := by
    unfold State.judgeRelease
    (repeat' split)
    case h_3.isTrue => exact L.settle (L.releaseZone _ (L.outside _ _ _ _ hs))
    all_goals exact L.outside _ _ _ _ hs
  unfold State.writeRelease
  split
  · exact judged
  · exact L.collide hs

/-- A write to any cell acts as the row of its select (R162; log entry 20). -/
theorem writeCell (cell : BitVec 5) (v : Word) (hs : P s) : P (s.writeCell cell v) := by
  unfold State.writeCell
  split
  case h_1 => exact L.writeRequest v hs
  case h_9 => exact L.writeCause v hs
  case h_10 => exact L.writeEnable v hs
  case h_11 => exact L.writeLevels v hs
  case h_12 => exact L.writeRelease v hs
  case h_13 => split; exacts [L.breakRelease hs, hs]
  all_goals exact L.outside _ _ _ _ hs

/-! ### Events outside the window -/

theorem takeLine (z : ZoneNo) (active : Bool) (hs : P s) : P (s.takeLine z active) := by
  simp only [State.takeLine]
  split
  · exact L.settle (L.enterAlarm z (L.setLine z active hs))
  · exact L.setLine z active hs

theorem takeZoneExpiry (z : ZoneNo) (hs : P s) : P (s.takeZoneExpiry z) := by
  unfold State.takeZoneExpiry
  split
  · rename_i ha; exact L.settle (L.expireZone z ha hs)
  · exact hs

theorem takeRevivalRetry (a : Aisle) (hs : P s) : P (s.takeRevivalRetry a) := by
  unfold State.takeRevivalRetry
  split
  · exact L.settle (L.still (still_placeRevivalAgain s a) hs)
  · exact hs

theorem grantNext (hs : P s) : P s.grantNext := by
  unfold State.grantNext
  split
  · exact L.still (still_beginExchange _ _ _) hs
  · exact hs

theorem takeLinkGrant (hs : P s) : P s.takeLinkGrant := by
  unfold State.takeLinkGrant State.grantLink
  (repeat' split)
  · exact L.grantNext (L.settle (L.still (still_dropStaleRevival _ _) hs))
  · exact L.still (still_beginExchange _ _ _) hs
  · exact hs
  · exact hs

theorem takeAnswer (chars : List LinkChar) (hs : P s) : P (s.takeAnswer chars) := by
  unfold State.takeAnswer
  split
  · exact L.settle (L.still (still_endExchange _ _ _) hs)
  · exact hs

theorem takeNoAnswer (hs : P s) : P s.takeNoAnswer := by
  unfold State.takeNoAnswer
  split
  · exact L.settle (L.still (still_endExchange _ _ _) hs)
  · exact hs

theorem takeMotionExpiry (a : Aisle) (hs : P s) : P (s.takeMotionExpiry a) := by
  unfold State.takeMotionExpiry
  split
  · exact L.settle (L.still (still_overrun s a) hs)
  · exact hs

theorem auditQualifying (b : BinNo) (hs : P s) : P (s.auditQualifying b) := by
  unfold State.auditQualifying
  (repeat' split)
  · exact hs
  · exact L.settle (L.still (still_makeAuditProbe _ _ _) hs)
  · exact L.still (still_fileClaim _ _) hs

theorem stepCursor (hs : P s) : P s.stepCursor := by
  unfold State.stepCursor State.auditAt
  (repeat' split)
  · exact hs
  · exact L.auditQualifying _ hs
  · exact L.settle (L.still (still_passAudit _ _) hs)
  · exact L.settle hs
  · exact hs

theorem takeDone (hs : P s) : P s.takeDone := by
  unfold State.takeDone
  split
  · exact L.settle (L.still (still_deliver _ _) hs)
  · exact hs

theorem takeLaneFault (hs : P s) : P s.takeLaneFault := by
  unfold State.takeLaneFault
  split
  · exact L.settle (L.still (still_failCrossing _ _ _) hs)
  · exact hs

theorem takeCrossingExpiry (hs : P s) : P s.takeCrossingExpiry := by
  unfold State.takeCrossingExpiry
  (repeat' split)
  · exact hs
  · exact L.settle (L.still (still_failCrossing _ _ _) hs)
  · exact hs

/-! ### A command, and a step -/

/-- A command keeps the law if, being a reset, it does so. -/
theorem exec (i : Instr) (hreset : ∀ m, i = .resetAsserted m → P (s.assertReset m))
    (hstart : i = .startUp → s.phase = .starting → P s.startUp) (hs : P s) : ∃ t, exec i s = .next t ∧ P t := by
  cases hi : requestCode? i with
  | some n =>
    obtain ⟨e, he, hexec⟩ := exec_request hi
    exact ⟨_, hexec s, L.takeRequest (L.evaluation he _) hs⟩
  | none =>
    cases i with
    | undefinedRequest v => exact ⟨_, rfl, L.writeRequest v hs⟩
    | requestCollision v => exact ⟨_, rfl, by split; exacts [L.writeRequest v hs, L.collide hs]⟩
    | releaseWrite v => exact ⟨_, rfl, L.writeRelease v hs⟩
    | causeWrite v => exact ⟨_, rfl, L.writeCause v hs⟩
    | enableWrite v => exact ⟨_, rfl, L.writeEnable v hs⟩
    | levelsWrite v => exact ⟨_, rfl, L.writeLevels v hs⟩
    | stateRead => exact ⟨_, rfl, L.outside _ _ _ _ hs⟩
    | windowCellWrite cell v => exact ⟨_, rfl, L.writeCell cell v hs⟩
    | resetAsserted m => exact ⟨_, rfl, hreset m rfl⟩
    | startUp => exact ⟨_, rfl, by split; exacts [hstart rfl ‹_›, hs]⟩
    | alarmLineChange z active => exact ⟨_, rfl, keeps_whenRunning (L.takeLine z active) (L.outside _ _ _ _ hs)⟩
    | zoneDeadlineExpiry z => exact ⟨_, rfl, keeps_whenRunning (L.takeZoneExpiry z) hs⟩
    | revivalRetryDue a => exact ⟨_, rfl, keeps_whenRunning (L.takeRevivalRetry a) hs⟩
    | offlinePollDue a => exact ⟨_, rfl, keeps_whenRunning (L.still (still_changeShuttle _ _ _)) hs⟩
    | linkGrant => exact ⟨_, rfl, keeps_whenRunning L.takeLinkGrant hs⟩
    | answerReceived chars => exact ⟨_, rfl, keeps_whenRunning (L.takeAnswer chars) hs⟩
    | answerInvalid => exact ⟨_, rfl, keeps_whenRunning L.takeNoAnswer hs⟩
    | replyWindowExpiry => exact ⟨_, rfl, keeps_whenRunning L.takeNoAnswer hs⟩
    | motionDeadlineExpiry a => exact ⟨_, rfl, keeps_whenRunning (L.takeMotionExpiry a) hs⟩
    | auditCursorStep => exact ⟨_, rfl, keeps_whenRunning L.stepCursor hs⟩
    | ldone => exact ⟨_, rfl, keeps_whenRunning L.takeDone hs⟩
    | lflt => exact ⟨_, rfl, keeps_whenRunning L.takeLaneFault hs⟩
    | crossingDeadlineExpiry => exact ⟨_, rfl, keeps_whenRunning L.takeCrossingExpiry hs⟩
    | receivedCharacterDiscarded c => exact ⟨_, rfl, hs⟩
    | _ => cases hi

/-- A step keeps the law if the two reset commands do. -/
theorem step (hreset : ∀ {u : State} (m : MemoryFate), P u → P (u.assertReset m))
    (hstart : ∀ {u : State}, P u → u.phase = .starting → P u.startUp) (hs : P s) {t : State}
    (h : step s = .next t) : P t := by
  unfold Machine.step at h
  split at h
  · rename_i c rest _
    have hq : P { s with pending := rest } := L.outside s.win s.dataOut s.fiu.alm rest hs
    obtain ⟨u, hu, hP⟩ := L.exec c (fun m _ => hreset m hq) (fun _ hp => hstart hq hp) hq
    rw [hu] at h; cases h; exact hP
  · cases h
    exact keeps_whenRunning L.second hs

end StepLaw

end Sys2Proof.Machine
end

section
/-! The part of the state that only the host's record requests and the resets change. -/
namespace Sys2Proof.Machine

/-! ## The records -/

/-- What the host's record requests and the resets alone change: the retained tables but for the segments, the supervised
attributes and the bins' places and holders; the drop list; the phase. -/
structure Records where
  pendingUpdate : Option PendingUpdate
  binFacts : Table BinRec
  items : Table Item
  patrons : Table Patron
  categories : Vector CategoryRow 4
  day : Nat
  deadlines : Vector Nat 4
  dropList : List Tag
  phase : Phase

def State.records (s : State) : Records :=
  { pendingUpdate := s.still.kept.pendingUpdate, binFacts := s.still.kept.binFacts, items := s.still.kept.items
    patrons := s.still.kept.patrons, categories := s.still.kept.categories, day := s.still.kept.day
    deadlines := s.still.kept.deadlines, dropList := s.still.kept.dropList, phase := s.still.kept.phase }

section
variable {s t : State}

theorem records_of_kept (h : t.still.kept = s.still.kept) : t.records = s.records := by
  simp only [State.records, h]

theorem records_of_still (h : t.still = s.still) : t.records = s.records := records_of_kept (by rw [h])

theorem records_of_calm (h : t.calm = s.calm) : t.records = s.records := records_of_kept (kept_of_calm h)

@[simp] theorem records_settle : s.settle.records = s.records := records_of_calm (calm_settle s)

/-- A law that the records decide is kept by a step where the evaluation of every request keeps it. -/
theorem StepLaw.ofRecords {P : State → Prop} (hP : ∀ {s t : State}, t.records = s.records → P s → P t)
    (heval : ∀ {s : State} {n : Nat} {e : Evaluation}, evaluationOf? n = some e → ∀ o : Operands, P s → (e o s).All P) :
    StepLaw P where
  still h := hP (records_of_still h)
  settle := hP records_settle
  enterAlarm z := hP (records_of_calm (calm_enterAlarm _ z))
  expireZone z _ := hP (records_of_calm (calm_expireZone _ z))
  releaseZone z := hP (records_of_calm (calm_releaseZone _ z))
  clearLatches _ := hP rfl
  setLine _ _ := hP rfl
  outside _ _ _ _ := hP rfl
  second := hP rfl
  evaluation := heval
end

/-- The codes of the requests that write records. -/
def recordCodes : List Nat :=
  [0x01, 0x02, 0x03, 0x09, 0x0A, 0x10, 0x11, 0x13, 0x14, 0x15, 0x40, 0x41, 0x42, 0x43, 0x44, 0x45, 0x46, 0x50, 0x51, 0x60, 0x70]

/-- Every request that writes no records leaves them. -/
theorem records_evaluation {s : State} {n : Nat} {e : Evaluation} (he : evaluationOf? n = some e) (hn : n ∉ recordCodes)
    (o : Operands) : (e o s).All fun t => t.records = s.records := by
  unfold evaluationOf? at he
  split at he
  all_goals cases he
  all_goals simp [recordCodes] at hn
  all_goals
    simp only [readBin, defineSegment, readSegment, readChanged, clearChanged, readCategory, readItem, readPatron, readLoans,
      fetch, collect, readOrder, cancelOrder, resumeOrder, audit, cancelAudit, auditBin, auditBinUnder, quiesce, wake,
      readShuttle, reviveShuttle, openStation, closeStation, setStation, dismiss, reclaimPlace, readStation, readLane,
      closePosition, readDropList, readZone, readFault, clearFault, atContext, onPatron, onOrder, onShuttle,
      State.cancelRunning, dismissPresented, reclaimOut, reclaimStow]
    (repeat' split)
  all_goals simp only [Reply.All, records_settle]
  all_goals try exact records_of_still (by simp [State.makeFetch, State.cancelHolding])
  all_goals rfl

/-- A law that the records decide is kept by every request if the requests that write records keep it. -/
theorem all_evaluation {P : State → Prop} (hP : ∀ {s t : State}, t.records = s.records → P s → P t) {s : State}
    {o : Operands} {n : Nat} {e : Evaluation} (he : evaluationOf? n = some e) (hs : P s)
    (hrows : n ∈ recordCodes → (e o s).All P) : (e o s).All P := by
  by_cases hn : n ∈ recordCodes
  · exact hrows hn
  · exact (records_evaluation he hn o).mono fun t ht => hP ht hs

end Sys2Proof.Machine
end

section
/-! Every request keeps the retained memory whole. -/
namespace Sys2Proof.Machine

variable {s : State} {o : Operands}

theorem pendingUpdate_of_memoryWhole (hs : s.memoryWhole = true) : s.pendingUpdate = none := by
  obtain ⟨-, -, -, hu⟩ := memoryWhole_iff.1 hs
  exact hu

/-! ## The frames of requests -/

@[simp] theorem firstFailing_eq_none : ∀ l : List (Bool × Code), firstFailing l = none ↔ ∀ x ∈ l, x.1 = true
  | [] => by simp [firstFailing]
  | (true, c) :: l => by simp [firstFailing, firstFailing_eq_none l]
  | (false, c) :: l => by simp [firstFailing]

theorem Reply.all_refuse {P : State → Prop} {c : Code} : (Reply.refuse c).All P := True.intro

theorem all_atContext {P : State → Prop} {e : StationNo → Evaluation} (h : ∀ n, (e n o s).All P) :
    (atContext e o s).All P := by
  unfold atContext
  split
  · exact Reply.all_refuse
  · exact h _

theorem all_handlingAt {P : State → Prop} {inRange : Operands → Bool} {e : PickNo → Evaluation}
    (h : ∀ k, (e k o s).All P) : (handlingAt inRange e o s).All P := by
  refine all_atContext fun n => ?_
  (repeat' split) <;> first | exact h _ | exact Reply.all_refuse

theorem all_recordAt {P : State → Prop} {inRange : Operands → Bool} {e : Evaluation} (h : (e o s).All P) :
    (recordAt inRange e o s).All P := by
  refine all_atContext fun n => ?_
  (repeat' split) <;> first | exact h | exact Reply.all_refuse

theorem all_onPatron {P : State → Prop} {e : PatronNo → Patron → Evaluation}
    (h : ∀ p, s.patron? o.patron = some p → (e o.patron p o s).All P) : (onPatron e o s).All P := by
  unfold onPatron
  (repeat' split) <;> first | exact h _ ‹_› | exact Reply.all_refuse

/-! ## The changes that requests make of items and patrons -/

section
variable (hs : s.memoryWhole = true)
include hs

theorem memoryWhole_pickedOutUp (b : BinNo) : (s.pickedOutUp b).memoryWhole = true := memoryWhole_changeBin _ _ hs

theorem memoryWhole_pickedOutDown (b : BinNo) : (s.pickedOutDown b).memoryWhole = true := memoryWhole_changeBin _ _ hs

theorem memoryWhole_holdCountUp (n : PatronNo) : (s.holdCountUp n).memoryWhole = true := memoryWhole_changePatron _ _ hs

theorem memoryWhole_holdCountDown (n : PatronNo) : (s.holdCountDown n).memoryWhole = true :=
  memoryWhole_changePatron _ _ hs

theorem memoryWhole_addLoan (n : PatronNo) (t : Tag) (due : Nat) : (s.addLoan n t due).memoryWhole = true :=
  memoryWhole_changePatron _ _ hs

theorem memoryWhole_removeLoan (n : PatronNo) (t : Tag) : (s.removeLoan n t).memoryWhole = true :=
  memoryWhole_changePatron _ _ hs

theorem memoryWhole_moveLoan (n : PatronNo) (t : Tag) (due : Nat) : (s.moveLoan n t due).memoryWhole = true :=
  memoryWhole_changePatron _ _ hs

end

theorem memoryWhole_retireFrom (t : Tag) (st : ItemState) (hs : s.memoryWhole = true) :
    (s.retireFrom t st).memoryWhole = true := by
  cases st with
  | shelved b => exact memoryWhole_countOut b hs
  | dropped => exact memoryWhole_congr (s := s) rfl rfl rfl rfl hs
  | _ => exact hs

theorem memoryWhole_recall (t : Tag) (st : ItemState) (hs : s.memoryWhole = true) : (s.recall t st).memoryWhole = true := by
  unfold State.recall
  repeat' split
  · exact memoryWhole_moveLoan hs _ _ _
  · exact hs
  · exact hs

section
variable {t : Tag} {i j : Item} (hf : s.item? t = some j)
include hf

theorem memoryWhole_pickItem (k : PickNo) (b : BinNo) (hs : s.memoryWhole = true) :
    (s.pickItem t i k b).memoryWhole = true :=
  memoryWhole_pickedOutUp (memoryWhole_countOut _ (memoryWhole_putItem_old _ hf hs)) _

theorem memoryWhole_putItemBack (origin target : BinNo) (r : BinRec) (hs : s.memoryWhole = true) :
    (s.putItemBack t i origin target r).memoryWhole = true :=
  memoryWhole_countIn _ (memoryWhole_pickedOutDown (memoryWhole_putItem_old _ hf hs) _)

theorem memoryWhole_chargeItem (origin : BinNo) (n : PatronNo) (due : Nat) (hs : s.memoryWhole = true) :
    (s.chargeItem t i origin n due).memoryWhole = true := by
  have lent := memoryWhole_pickedOutDown (memoryWhole_addLoan
    (memoryWhole_putItem_old { state := .onLoan n due 0, holds := holdsAfterCharge n i.holds } hf hs) n t due) origin
  simp only [State.chargeItem]
  split
  · exact memoryWhole_holdCountDown lent n
  · exact lent

theorem memoryWhole_renewItem (n : PatronNo) (due k : Nat) (hs : s.memoryWhole = true) :
    (s.renewItem t i n due k).memoryWhole = true :=
  memoryWhole_moveLoan (memoryWhole_putItem_old _ hf hs) _ _ _

theorem memoryWhole_loseItem (hs : s.memoryWhole = true) : (s.loseItem t i).memoryWhole = true :=
  memoryWhole_putItem_old _ ((item?_dropHolds t i.holds s).trans hf) (memoryWhole_dropHolds i.holds hs)

theorem memoryWhole_addHold (n : PatronNo) (hs : s.memoryWhole = true) : (s.addHold t i n).memoryWhole = true := by
  simp only [State.addHold]
  exact memoryWhole_recall _ _ (memoryWhole_holdCountUp (memoryWhole_putItem_old _ hf hs) n)

theorem memoryWhole_removeHold (n : PatronNo) (hs : s.memoryWhole = true) : (s.removeHold t i n).memoryWhole = true :=
  memoryWhole_holdCountDown (memoryWhole_putItem_old _ hf hs) _

theorem memoryWhole_placeReturned (p : Position) (b : BinNo) (holds : List PatronNo) (hs : s.memoryWhole = true) :
    (s.placeReturned p b t holds).memoryWhole = true := by
  have placed (st : ItemState) := memoryWhole_countIn b (memoryWhole_putItem_old { state := st, holds := holds } hf hs)
  simp only [State.placeReturned]
  (repeat' split) <;> exact placed _

theorem memoryWhole_dropItem (hs : s.memoryWhole = true) : (s.dropItem t i).memoryWhole = true := by
  have dropped := memoryWhole_putItem_old { i with state := .dropped } hf hs
  simp only [State.dropItem, State.reportDrop]
  split
  · exact memoryWhole_of_kept (congrArg Still.kept (still_wakeByNeed _)) dropped
  · exact dropped

end

/-- The former state of a returned item ends without a change of the item table (R135). -/
@[simp] theorem item?_endFormer (t u : Tag) (st : ItemState) : (s.endFormer t st).item? u = s.item? u := by
  cases st <;> rfl

theorem memoryWhole_endFormer (t : Tag) (st : ItemState) (hs : s.memoryWhole = true) :
    (s.endFormer t st).memoryWhole = true := by
  unfold State.endFormer
  split
  · exact memoryWhole_removeLoan hs _ _
  · exact memoryWhole_pickedOutDown hs _
  · exact hs

/-! ## The requests that write records -/

section
variable (hs : s.memoryWhole = true)
include hs

theorem memoryWhole_enrolBin : (enrolBin o s).All fun t => t.memoryWhole = true := by
  unfold enrolBin
  repeat' split
  any_goals exact Reply.all_refuse
  exact memoryWhole_settle (memoryWhole_putBin _ _ hs)

theorem memoryWhole_retireBin : (retireBin o s).All fun t => t.memoryWhole = true := by
  unfold retireBin
  repeat' split
  any_goals exact Reply.all_refuse
  exact memoryWhole_eraseBin _ hs

theorem memoryWhole_setPlace : (setPlace o s).All fun t => t.memoryWhole = true := by
  unfold setPlace
  repeat' split
  any_goals exact Reply.all_refuse
  exact memoryWhole_settle (memoryWhole_putBin _ _ hs)

theorem memoryWhole_setDay : (setDay o s).All fun t => t.memoryWhole = true := by
  unfold setDay
  split
  · exact Reply.all_refuse
  · exact hs

theorem memoryWhole_setCategory : (setCategory o s).All fun t => t.memoryWhole = true := by
  unfold setCategory
  repeat' split
  any_goals exact Reply.all_refuse
  exact hs

theorem memoryWhole_enrolItem : (enrolItem o s).All fun t => t.memoryWhole = true := by
  refine all_atContext fun n => ?_
  repeat' split
  any_goals exact Reply.all_refuse
  have hnew : enrolItemRefusal o.tag n s = none := ‹_›
  have hbin : enrolItemBinRefusal _ s = none := ‹_›
  simp only [enrolItemRefusal, enrolItemBinRefusal, firstFailing_eq_none, List.forall_mem_cons, Option.isNone_iff_eq_none,
    decide_eq_true_eq] at hnew hbin
  obtain ⟨htag, -, -, -, hnone, -⟩ := hnew
  obtain ⟨-, -, hroom, -⟩ := hbin
  exact memoryWhole_countIn _ (memoryWhole_putItem_new _ htag hnone hroom hs)

theorem memoryWhole_retireItem : (retireItem o s).All fun t => t.memoryWhole = true := by
  unfold retireItem
  repeat' split
  any_goals exact Reply.all_refuse
  exact memoryWhole_settle (memoryWhole_eraseItem _ (memoryWhole_dropHolds _ (memoryWhole_retireFrom _ _ hs)))

theorem memoryWhole_enrolPatron : (enrolPatron o s).All fun t => t.memoryWhole = true := by
  unfold enrolPatron
  repeat' split
  any_goals exact Reply.all_refuse
  rename_i hnew
  simp only [firstFailing_eq_none, List.forall_mem_cons, Option.isNone_iff_eq_none, decide_eq_true_eq] at hnew
  obtain ⟨hnumber, hnone, hroom, -⟩ := hnew
  exact memoryWhole_putPatron_new _ hnumber hnone hroom hs

theorem memoryWhole_retirePatron : (retirePatron o s).All fun t => t.memoryWhole = true := by
  refine all_onPatron fun p _ => ?_
  split
  · exact memoryWhole_erasePatron _ hs
  · exact Reply.all_refuse

theorem memoryWhole_setPatronBlock : (setPatronBlock o s).All fun t => t.memoryWhole = true := by
  unfold setPatronBlock
  split
  · exact Reply.all_refuse
  · exact all_onPatron fun p hp => memoryWhole_putPatron_old _ hp hs

theorem memoryWhole_pick : (pick o s).All fun t => t.memoryWhole = true := by
  refine all_handlingAt fun k => ?_
  repeat' split
  any_goals exact Reply.all_refuse
  exact memoryWhole_pickItem ‹_› _ _ hs

theorem memoryWhole_putBack : (putBack o s).All fun t => t.memoryWhole = true := by
  refine all_handlingAt fun k => ?_
  repeat' split
  any_goals exact Reply.all_refuse
  exact memoryWhole_putItemBack ‹_› _ _ _ hs

theorem memoryWhole_charge : (charge o s).All fun t => t.memoryWhole = true := by
  unfold charge chargeUnder
  refine all_handlingAt fun k => ?_
  dsimp only
  repeat' split
  any_goals exact Reply.all_refuse
  rename_i i hi _ _ _ _ _ _ _ _ _
  exact memoryWhole_chargeItem hi _ _ _ hs

theorem memoryWhole_renew : (renew o s).All fun t => t.memoryWhole = true := by
  refine all_handlingAt fun k => ?_
  unfold renewLoan
  repeat' split
  any_goals exact Reply.all_refuse
  exact memoryWhole_renewItem ‹s.item? o.tag = some _› _ _ _ hs

theorem memoryWhole_declareLost : (declareLost o s).All fun t => t.memoryWhole = true := by
  refine all_recordAt ?_
  repeat' split
  any_goals exact Reply.all_refuse
  · exact memoryWhole_loseItem (s := s.removeLoan _ _) ‹s.item? o.tag = some _› (memoryWhole_removeLoan hs _ _)
  · exact memoryWhole_loseItem (s := s.countOut _) ‹s.item? o.tag = some _› (memoryWhole_countOut _ hs)

theorem memoryWhole_placeHold : (placeHold o s).All fun t => t.memoryWhole = true := by
  refine all_recordAt ?_
  dsimp only
  repeat' split
  any_goals exact Reply.all_refuse
  rename_i i hi _ _ _ _ _
  exact memoryWhole_addHold hi _ hs

theorem memoryWhole_cancelHold : (cancelHold o s).All fun t => t.memoryWhole = true := by
  refine all_recordAt ?_
  repeat' split
  any_goals exact Reply.all_refuse
  exact memoryWhole_removeHold ‹s.item? o.tag = some _› _ hs

theorem memoryWhole_returnItem : (returnItem o s).All fun t => t.memoryWhole = true := by
  refine all_atContext fun n => ?_
  dsimp only [returnAccepted]
  repeat' split
  any_goals exact Reply.all_refuse
  · exact memoryWhole_settle (memoryWhole_placeReturned ((item?_endFormer _ _ _).trans ‹s.item? o.tag = some _›) _ _ _
      (memoryWhole_endFormer _ _ hs))
  · exact memoryWhole_settle (memoryWhole_dropItem ((item?_endFormer _ _ _).trans ‹s.item? o.tag = some _›)
      (memoryWhole_endFormer _ _ hs))

theorem memoryWhole_placeDropped : (placeDropped o s).All fun t => t.memoryWhole = true := by
  refine all_atContext fun n => ?_
  repeat' split
  any_goals exact Reply.all_refuse
  exact memoryWhole_settle (memoryWhole_placeReturned (s := { s with dropList := s.dropList.erase o.tag })
    ‹s.item? o.tag = some _› _ _ _ hs)

theorem memoryWhole_setDeadline : (setDeadline o s).All fun t => t.memoryWhole = true := by
  unfold setDeadline
  repeat' split
  any_goals exact Reply.all_refuse
  exact hs

theorem memoryWhole_resetController : (resetController o s).All fun t => t.memoryWhole = true :=
  memoryWhole_settle (memoryWhole_congr rfl rfl rfl rfl (memoryWhole_resetBins Place.lostBySoftReset hs))

end

end Sys2Proof.Machine
end

section
/-! START_UP as a whole (R170). -/
namespace Sys2Proof.Machine

variable {s : State}

/-! ## The retained steps of start-up (R20 to R22) -/

/-- The retained tables once the pending update is dealt with: its image if it was complete (R20). -/
def State.updatedTables (s : State) : Tables :=
  match s.pendingUpdate with
  | some u => if u.complete then u.image else s.tab
  | none => s.tab

theorem updatedTables_of_none (h : s.pendingUpdate = none) : s.updatedTables = s.tab := by
  rw [State.updatedTables, h]

theorem settleUpdate_eq : s.settleUpdate = { s with tab := s.updatedTables, pendingUpdate := none } := by
  unfold State.settleUpdate State.updatedTables
  cases h : s.pendingUpdate with
  | some u => cases hc : u.complete <;> simp [hc]
  | none => simp only [← h]

/-- The retained tables start-up leaves: brought up to date or formatted, and the bins under way lost (R20 to R22). -/
def State.startTables (s : State) : Tables :=
  let t := if s.formatMark then s.updatedTables else formattedTables
  { t with bins := tableMap (BinRec.afterReset Place.lostByPowerOn) t.bins }

theorem retainedSteps_eq :
    s.settleUpdate.format.resetBins Place.lostByPowerOn =
      { s with formatMark := true, pendingUpdate := none, tab := s.startTables } := by
  rw [settleUpdate_eq]
  unfold State.format State.startTables
  cases h : s.formatMark <;> simp [State.resetBins]

/-! ## The zones at start-up (R159) -/

theorem latch_zoneAlarm_zoneSealed (x : BitVec 11) :
    x ||| BitVec.twoPow 11 (Cause.zoneAlarm.number - 1) ||| BitVec.twoPow 11 (Cause.zoneSealed.number - 1) = x ||| 0b11#11 := by
  rw [BitVec.or_assoc]; rfl

/-- The zones follow their lines; a sealed zone latches its two causes, and zone 3 sealed holds the lane and the stations (R159). -/
theorem startZones_eq :
    s.startZones = { s with
      fiu.zones := mapRow startZone s.fiu.alm
      au.latches := if s.fiu.alm.toList.any id then s.au.latches ||| 0b11#11 else s.au.latches
      lc.lstop := s.fiu.alm[frontHall] || s.lc.lstop
      su.states := if s.fiu.alm[frontHall] then Vector.replicate 5 (.fireHeld false) else s.su.states } := by
  simp only [State.startZones]
  cases ha : s.fiu.alm.toList.any id <;> cases hf : s.fiu.alm[frontHall] <;>
    simp [State.latch, latch_zoneAlarm_zoneSealed, hf, -Fin.getElem_fin]

/-! ## Start-up as a whole (R170) -/

/-- The state start-up leaves, block by block. -/
theorem startUp_eq :
    s.startUp =
      { formatMark := true, pendingUpdate := none, tab := s.startTables, dropList := droppedTags s.startTables.items
        ou := resetOrderUnit, alc := resetLinkUnit
        lc := { resetLaneUnit with lgoPulses := s.lc.lgoPulses, lstop := s.fiu.alm[frontHall] }
        su := { resetStationUnit with
          states := if s.fiu.alm[frontHall] then Vector.replicate 5 (.fireHeld false) else Vector.replicate 5 .closed }
        fiu := { zones := mapRow startZone s.fiu.alm, alm := s.fiu.alm }
        au := { latches := if s.fiu.alm.toList.any id then 0b11#11 else 0, fault := none }
        win := { s.win with busy := false }, phase := .running, dataOut := s.dataOut, pending := s.pending } := by
  rw [State.startUp, retainedSteps_eq, startZones_eq]
  simp [State.rebuild, State.rebuildDropList, State.endStartUp, resetAttentionUnit, resetLaneUnit, resetStationUnit,
    -Fin.getElem_fin]
  rfl

theorem zone_startUp (z : ZoneNo) : s.startUp.zone z = startZone s.fiu.alm[z] := by
  rw [startUp_eq]
  exact mapRow_getElem startZone s.fiu.alm z.val z.isLt

end Sys2Proof.Machine
end

section
/-! The retained memory and the settings: what every request and START_UP keep of them. -/
namespace Sys2Proof.Machine

variable {s : State} {o : Operands}

/-! ## The retained memory -/

theorem memoryWhole_of_records {t : State} (h : t.records = s.records) (hs : s.memoryWhole = true) : t.memoryWhole = true := by
  have hb : tableMap BinRec.facts t.tab.bins = tableMap BinRec.facts s.tab.bins := congrArg Records.binFacts h
  have hi : t.tab.items = s.tab.items := congrArg Records.items h
  have hp : t.tab.patrons = s.tab.patrons := congrArg Records.patrons h
  have hu : t.pendingUpdate = s.pendingUpdate := congrArg Records.pendingUpdate h
  rw [memoryWhole_iff] at hs ⊢
  rw [hi, hp, hu, ← tableMap_sorted BinRec.facts t.tab.bins, ← tableMap_keysIn 0 2047 BinRec.facts t.tab.bins, hb,
    tableMap_sorted, tableMap_keysIn]
  exact hs

/-- Every request keeps the retained memory whole. -/
theorem memoryWhole_evaluation {n : Nat} {e : Evaluation} (he : evaluationOf? n = some e) (o : Operands)
    (hs : s.memoryWhole = true) : (e o s).All fun t => t.memoryWhole = true := by
  refine all_evaluation memoryWhole_of_records he hs fun hn => ?_
  fin_cases hn <;> cases he
  exacts [memoryWhole_enrolBin hs, memoryWhole_retireBin hs, memoryWhole_setPlace hs, memoryWhole_setDay hs,
    memoryWhole_setCategory hs, memoryWhole_enrolItem hs, memoryWhole_retireItem hs, memoryWhole_enrolPatron hs,
    memoryWhole_retirePatron hs, memoryWhole_setPatronBlock hs, memoryWhole_pick hs, memoryWhole_putBack hs,
    memoryWhole_charge hs, memoryWhole_renew hs, memoryWhole_declareLost hs, memoryWhole_placeHold hs,
    memoryWhole_cancelHold hs, memoryWhole_returnItem hs, memoryWhole_placeDropped hs, memoryWhole_setDeadline hs,
    memoryWhole_resetController hs]

theorem memoryWhole_stepLaw : StepLaw fun s => s.memoryWhole = true :=
  .ofRecords memoryWhole_of_records memoryWhole_evaluation

theorem memoryWhole_startUp (hs : s.memoryWhole = true) : s.startUp.memoryWhole = true := by
  have hp := pendingUpdate_of_memoryWhole hs
  have hu : s.updatedTables = s.tab := updatedTables_of_none hp
  rw [startUp_eq]
  cases hm : s.formatMark with
  | true =>
    refine memoryWhole_congr (s := s.resetBins Place.lostByPowerOn) ?_ ?_ ?_ ?_ (memoryWhole_resetBins _ hs)
    all_goals simp [State.startTables, State.resetBins, hm, hu]
    exact hp.symm
  | false => simp only [State.memoryWhole, State.startTables, hm]; rfl

/-! ## The settings -/

/-- What no request but SET DAY, SET CATEGORY and SET DEADLINE changes of the settings, and the phase, which none changes. -/
def State.settings (s : State) : Vector CategoryRow 4 × Nat × Vector Nat 4 × Phase :=
  (s.tab.categories, s.tab.day, s.tab.deadlines, s.phase)

theorem settings_of_records {t : State} (h : t.records = s.records) : t.settings = s.settings := by
  have h1 : t.tab.categories = s.tab.categories := congrArg Records.categories h
  have h2 : t.tab.day = s.tab.day := congrArg Records.day h
  have h3 : t.tab.deadlines = s.tab.deadlines := congrArg Records.deadlines h
  have h4 : t.phase = s.phase := congrArg Records.phase h
  simp only [State.settings, h1, h2, h3, h4]

@[simp] theorem settings_settle : s.settle.settings = s.settings := settings_of_records records_settle

@[simp] theorem settings_dropHolds : ∀ (ns : List PatronNo) (s : State), (State.dropHolds ns s).settings = s.settings
  | [], _ => rfl
  | n :: rest, s => (settings_dropHolds rest (s.holdCountDown n)).trans rfl

@[simp] theorem settings_eraseItem (t : Tag) : (s.eraseItem t).settings = s.settings := rfl

@[simp] theorem settings_retireFrom (t : Tag) (st : ItemState) : (s.retireFrom t st).settings = s.settings := by
  cases st <;> rfl

@[simp] theorem settings_chargeItem (t : Tag) (i : Item) (origin : BinNo) (n : PatronNo) (due : Nat) :
    (s.chargeItem t i origin n due).settings = s.settings := by
  simp only [State.chargeItem]
  split <;> rfl

@[simp] theorem settings_loseItem (t : Tag) (i : Item) : (s.loseItem t i).settings = s.settings :=
  settings_dropHolds i.holds s

@[simp] theorem settings_recall (t : Tag) (st : ItemState) : (s.recall t st).settings = s.settings := by
  unfold State.recall
  repeat' split
  all_goals rfl

@[simp] theorem settings_addHold (t : Tag) (i : Item) (n : PatronNo) : (s.addHold t i n).settings = s.settings :=
  (settings_recall t i.state).trans rfl

@[simp] theorem settings_endFormer (t : Tag) (st : ItemState) : (s.endFormer t st).settings = s.settings := by
  cases st <;> rfl

@[simp] theorem settings_placeReturned (p : Position) (b : BinNo) (t : Tag) (holds : List PatronNo) :
    (s.placeReturned p b t holds).settings = s.settings := by
  simp only [State.placeReturned]
  repeat' split
  all_goals rfl

@[simp] theorem settings_dropItem (t : Tag) (i : Item) : (s.dropItem t i).settings = s.settings := by
  simp only [State.dropItem, State.reportDrop]
  split
  · exact (settings_of_records (records_of_still (still_wakeByNeed _))).trans rfl
  · rfl

@[simp] theorem settings_softReset : s.softReset.settings = s.settings := settings_settle.trans rfl

/-- The codes of the requests that write settings. -/
def settingCodes : List Nat := [0x09, 0x0A, 0x60]

/-- Every request but SET DAY, SET CATEGORY and SET DEADLINE leaves the settings and the phase. -/
theorem settings_evaluation {n : Nat} {e : Evaluation} (he : evaluationOf? n = some e) (hn : n ∉ settingCodes)
    (o : Operands) : (e o s).All fun t => t.settings = s.settings := by
  refine all_evaluation (P := fun t => t.settings = s.settings) (fun h hs => (settings_of_records h).trans hs) he rfl
    fun hr => ?_
  fin_cases hr <;> cases he
  all_goals simp [settingCodes] at hn
  all_goals
    simp only [enrolBin, retireBin, setPlace, enrolItem, retireItem, enrolPatron, retirePatron, setPatronBlock, pick,
      putBack, charge, chargeUnder, renew, declareLost, placeHold, cancelHold, returnItem, placeDropped, resetController,
      atContext, onPatron, handlingAt, recordAt, renewLoan, returnAccepted, placeAccepted]
    repeat' split
  all_goals first | exact Reply.all_refuse | simp [Reply.All]
  all_goals rfl

theorem phase_of_settings {t : State} (h : t.settings = s.settings) : t.phase = s.phase := by
  simp only [State.settings, Prod.mk.injEq] at h
  obtain ⟨-, -, -, hp⟩ := h
  exact hp

/-- The law is one of the category table, the day and the deadline settings alone. -/
theorem settingsLaw_congr {t : State} (hc : t.tab.categories = s.tab.categories) (hd : t.tab.day = s.tab.day)
    (hz : t.tab.deadlines = s.tab.deadlines) (hs : s.SettingsLaw) : t.SettingsLaw := by
  simp only [State.SettingsLaw, State.categoryRow, hc, hd, hz] at hs ⊢
  exact hs

theorem settingsLaw_of_settings {t : State} (h : t.settings = s.settings) (hs : s.SettingsLaw) : t.SettingsLaw := by
  simp only [State.settings, Prod.mk.injEq] at h
  obtain ⟨hc, hd, hz, -⟩ := h
  exact settingsLaw_congr hc hd hz hs

/-- A cell holds no number above 65,535 (R37, R161). -/
theorem cell_le (o : Operands) (i : Fin 6) : o.cell i ≤ Config.maxDay := Nat.le_of_lt_succ o.p[i].isLt

theorem settingsLaw_setDay (hs : s.SettingsLaw) : (setDay o s).All State.SettingsLaw := by
  obtain ⟨hc, hz, -⟩ := hs
  unfold setDay
  split
  · exact Reply.all_refuse
  · exact ⟨hc, hz, cell_le o 0⟩

theorem settingsLaw_setCategory (hs : s.SettingsLaw) : (setCategory o s).All State.SettingsLaw := by
  obtain ⟨hc, hz, hd⟩ := hs
  unfold setCategory
  repeat' split
  any_goals exact Reply.all_refuse
  rename_i c _ hrange
  refine ⟨fun c' => ?_, hz, hd⟩
  simp only [State.categoryRow, Fin.getElem_fin, Vector.getElem_set] at hc ⊢
  split
  · exact hrange
  · exact hc c'

theorem settingsLaw_setDeadline (hs : s.SettingsLaw) : (setDeadline o s).All State.SettingsLaw := by
  obtain ⟨hc, hz, hd⟩ := hs
  unfold setDeadline
  repeat' split
  any_goals exact Reply.all_refuse
  rename_i z _ hrange _
  refine ⟨hc, fun z' => ?_, hd⟩
  simp only [Fin.getElem_fin, Vector.getElem_set] at hz ⊢
  split
  · exact hrange
  · exact hz z'

/-- Every request keeps the settings in their ranges (R38, R36, R157). -/
theorem settingsLaw_evaluation {n : Nat} {e : Evaluation} (he : evaluationOf? n = some e) (o : Operands)
    (hs : s.SettingsLaw) : (e o s).All State.SettingsLaw := by
  by_cases hn : n ∈ settingCodes
  · fin_cases hn <;> cases he
    exacts [settingsLaw_setDay hs, settingsLaw_setCategory hs, settingsLaw_setDeadline hs]
  · exact (settings_evaluation he hn o).mono fun t ht => settingsLaw_of_settings ht hs

/-- No request changes the phase. -/
theorem phase_evaluation {n : Nat} {e : Evaluation} (he : evaluationOf? n = some e) (o : Operands) :
    (e o s).All fun t => t.phase = s.phase := by
  by_cases hn : n ∈ settingCodes
  · fin_cases hn <;> cases he
    all_goals
      simp only [setDay, setCategory, setDeadline]
      repeat' split
    all_goals first | exact Reply.all_refuse | rfl
  · exact (settings_evaluation he hn o).mono fun t => phase_of_settings

end Sys2Proof.Machine
end

section
/-! The laws that every step keeps. -/
namespace Sys2Proof.Machine

variable {s : State}

theorem settingsLaw_stepLaw : StepLaw State.SettingsLaw :=
  .ofRecords (fun h => settingsLaw_of_settings (settings_of_records h)) settingsLaw_evaluation

theorem running_stepLaw : StepLaw fun s => s.phase = .running :=
  .ofRecords (fun h hs => (congrArg Records.phase h).trans hs)
    fun he o hs => (phase_evaluation he o).mono fun _ ht => ht.trans hs

theorem settingsLaw_reset : State.reset.SettingsLaw :=
  ⟨fun c => by cases c <;> decide, fun z => by revert z; decide, by decide⟩

theorem settingsLaw_startUp (hu : s.pendingUpdate = none) (hs : s.SettingsLaw) : s.startUp.SettingsLaw := by
  have ht : s.updatedTables = s.tab := updatedTables_of_none hu
  cases hm : s.formatMark with
  | true => refine settingsLaw_congr ?_ ?_ ?_ hs <;> simp [startUp_eq, State.startTables, hm, ht]
  | false => refine settingsLaw_congr ?_ ?_ ?_ settingsLaw_reset <;> simp [startUp_eq, State.startTables, hm, State.reset]

/-! ## The fire panel's lines and the latches -/

theorem lineLaws_clearLatches (m : BitVec 11) (hs : s.lineLaws) :
    State.lineLaws { s with au.latches := s.au.latches &&& m } := by
  obtain ⟨hclear, hstop, hstray⟩ := hs
  refine ⟨hclear, hstop, ?_⟩
  have h : (s.au.latches &&& m) &&& ~~~eventMask = (s.au.latches &&& ~~~eventMask) &&& m := by
    rw [BitVec.and_assoc, BitVec.and_comm m, ← BitVec.and_assoc]
  have h0 : s.au.latches &&& ~~~eventMask = 0 := hstray
  exact h.trans (by rw [h0]; simp)

/-- A change of level on an alarm line leaves every zone's state and CLR line (R142). -/
theorem zone_setLine (z w : ZoneNo) (active : Bool) :
    (s.setLine z active).zone w = if z = w then { s.zone z with line := active } else s.zone w := by
  simp only [State.zone, State.setLine_fiu_zones, Fin.getElem_fin, Vector.getElem_set, Fin.ext_iff]

/-- The laws hold of a state whose zones have the same states and CLR lines, with the same LSTOP and latches. -/
theorem lineLaws_of_zones {t : State} (hz : ∀ z, (t.zone z).clr = decide ((t.zone z).state = .sealed) ∧
      (t.zone z).state.stops = (s.zone z).state.stops)
    (hl : t.lc.lstop = s.lc.lstop) (ha : t.au.latches = s.au.latches) (hs : s.lineLaws) : t.lineLaws := by
  obtain ⟨-, hstop, hstray⟩ := hs
  refine ⟨(clearLaw_iff t).2 fun z => (hz z).1, ?_, ?_⟩
  · rw [stopLaw_iff] at hstop ⊢
    rw [hl, hstop]
    exact (hz frontHall).2.symm
  · exact (congrArg (· &&& ~~~eventMask) ha).trans hstray

theorem lineLaws_setLine (z : ZoneNo) (active : Bool) (hs : s.lineLaws) : (s.setLine z active).lineLaws := by
  have hclear := (clearLaw_iff s).1 hs.1
  refine lineLaws_of_zones (s := s) (fun w => ?_) rfl rfl hs
  rw [zone_setLine]
  split
  · rename_i e; subst e; exact ⟨hclear z, rfl⟩
  · exact ⟨hclear w, rfl⟩

/-- A second of the clock lowers deadlines, and seals and stops nothing (R141). -/
theorem lineLaws_second (hs : s.lineLaws) : s.second.lineLaws := by
  have hclear := (clearLaw_iff s).1 hs.1
  refine lineLaws_of_zones (s := s) (fun z => ?_) rfl rfl hs
  have hz : s.second.zone z = (s.zone z).tick := mapRow_getElem _ _ _ _
  rw [hz]
  refine ⟨(hclear z).trans ?_, ?_⟩ <;> cases h : (s.zone z).state <;> simp [Zone.tick, ZoneState.tick, ZoneState.stops, h]

theorem lineLaws_stepLaw : StepLaw State.lineLaws where
  still := lineLaws_of_still
  settle := lineLaws_settle
  enterAlarm := lineLaws_enterAlarm
  expireZone := lineLaws_expireZone
  releaseZone := lineLaws_releaseZone
  clearLatches := lineLaws_clearLatches
  setLine := lineLaws_setLine
  outside _ _ _ _ hs := hs
  second := lineLaws_second
  evaluation := lineLaws_evaluation

/-- Start-up sets the zones, LSTOP and the latches from the alarm lines (R159, R98). -/
theorem lineLaws_startUp : s.startUp.lineLaws := by
  refine ⟨?_, ?_, ?_⟩
  · rw [clearLaw_iff]
    intro z
    rw [zone_startUp]
    cases s.fiu.alm[z] <;> rfl
  · rw [stopLaw_iff, State.zoneState, zone_startUp, startUp_eq]
    dsimp only
    cases s.fiu.alm[frontHall] <;> rfl
  · rw [startUp_eq]
    show (if s.fiu.alm.toList.any id then 0b11#11 else 0) &&& ~~~eventMask = 0
    split <;> decide

/-! ## BUSY through a power-on reset (R169) -/

/-- A write to any cell leaves BUSY set while it is set, for REQUEST and RELEASE writes collide then (R164). -/
theorem busy_writeCell (hp : s.phase = .starting) (hb : s.win.busy = true) (cell : BitVec 5) (v : Word) :
    (s.writeCell cell v).win.busy = true := by
  have hw : s.windowFree = false := by simp [State.windowFree, hb]
  unfold State.writeCell
  split
  case h_1 => rw [State.writeRequest, takeRequest_busy hw]; exact hb
  case h_12 => rw [State.writeRelease, hw]; exact hb
  case h_13 => split <;> exact hb
  all_goals simp [State.writeCause, State.writeEnable, State.writeLevels, State.writeContext, State.writeParameter, hp, hb]

/-- During start-up every command but START_UP leaves BUSY set (R169). -/
theorem busy_exec (hp : s.phase = .starting) (hb : s.win.busy = true) {i : Instr} (hi : i ≠ .startUp) {t : State}
    (h : exec i s = .next t) : t.win.busy = true := by
  have hw : s.windowFree = false := by simp [State.windowFree, hb]
  have ignored (f : State → State) : (s.whenRunning f).win.busy = true := by rw [State.whenRunning, hp]; exact hb
  obtain ⟨u, hu, hbusy⟩ : ∃ u, exec i s = .next u ∧ u.win.busy = true := by
    cases hn : requestCode? i with
    | some n =>
      obtain ⟨e, -, hexec⟩ := exec_request hn
      exact ⟨_, hexec s, by rw [takeRequest_busy hw]; exact hb⟩
    | none =>
      cases i with
      | undefinedRequest v => exact ⟨_, rfl, by rw [State.writeRequest, takeRequest_busy hw]; exact hb⟩
      | requestCollision v => exact ⟨_, rfl, by rw [hw]; exact hb⟩
      | releaseWrite v => exact ⟨_, rfl, by rw [State.writeRelease, hw]; exact hb⟩
      | causeWrite v => exact ⟨_, rfl, by rw [State.writeCause, hp]; exact hb⟩
      | enableWrite v => exact ⟨_, rfl, by rw [State.writeEnable, hp]; exact hb⟩
      | levelsWrite v => exact ⟨_, rfl, by rw [State.writeLevels, hp]; exact hb⟩
      | stateRead => exact ⟨_, rfl, hb⟩
      | windowCellWrite cell v => exact ⟨_, rfl, busy_writeCell hp hb cell v⟩
      | resetAsserted m => exact ⟨_, rfl, rfl⟩
      | startUp => exact absurd rfl hi
      | alarmLineChange z active =>
        have hpin : (s.setPin z active).phase = .starting := hp
        exact ⟨_, rfl, by rw [State.whenRunning, hpin]; exact hb⟩
      | receivedCharacterDiscarded c => exact ⟨_, rfl, hb⟩
      | zoneDeadlineExpiry | revivalRetryDue | offlinePollDue | linkGrant | answerReceived | answerInvalid
      | replyWindowExpiry | motionDeadlineExpiry | auditCursorStep | ldone | lflt | crossingDeadlineExpiry =>
        exact ⟨_, rfl, ignored _⟩
      | _ => cases hn
  rw [hu] at h
  cases h
  exact hbusy

theorem windowLaw_iff : s.windowLaw = true ↔ s.phase = .starting → s.win.busy = true := by
  cases hp : s.phase <;> simp [State.windowLaw, hp]

theorem windowLaw_exec {i : Instr} {t : State} (hs : s.windowLaw = true) (h : exec i s = .next t) : t.windowLaw = true := by
  rw [windowLaw_iff] at hs ⊢
  intro ht
  by_cases hreset : ∃ m, i = .resetAsserted m
  · obtain ⟨m, rfl⟩ := hreset
    cases h; rfl
  have keptRunning (hr : s.phase = .running) : False := by
    obtain ⟨u, hu, hrun⟩ := running_stepLaw.exec i (fun m hm => absurd ⟨m, hm⟩ hreset) (fun _ _ => by rw [startUp_eq]) hr
    rw [hu] at h
    cases h
    rw [hrun] at ht
    cases ht
  cases hp : s.phase with
  | running => exact (keptRunning hp).elim
  | starting =>
    refine busy_exec hp (hs hp) ?_ h
    rintro rfl
    have hst : exec .startUp s = .next s.startUp := by unfold exec execStartUp; rw [hp]
    rw [hst] at h
    cases h
    rw [startUp_eq] at ht
    cases ht

theorem windowLaw_step {t : State} (hs : s.windowLaw = true) (h : step s = .next t) : t.windowLaw = true := by
  unfold step at h
  split at h
  · rename_i c rest _
    exact windowLaw_exec (s := { s with pending := rest }) hs h
  · cases h
    exact keeps_whenRunning (P := fun t => t.windowLaw = true) (fun h => h) hs

/-! ## Safety -/

theorem safe_iff : s.safe = true ↔ s.memoryWhole = true ∧ s.lineLaws ∧ s.windowLaw = true := by
  simp only [State.safe, State.lineLaws, Bool.and_eq_true, latchLaw_iff]
  tauto

theorem memoryWhole_step {t : State} (hs : s.memoryWhole = true) (h : step s = .next t) : t.memoryWhole = true :=
  memoryWhole_stepLaw.step (fun _ hu => hu) (fun hu _ => memoryWhole_startUp hu) hs h

theorem lineLaws_step {t : State} (hs : s.lineLaws) (h : step s = .next t) : t.lineLaws :=
  lineLaws_stepLaw.step (fun _ hu => hu) (fun _ _ => lineLaws_startUp) hs h

theorem settingsLaw_step {t : State} (hm : s.memoryWhole = true) (hs : s.SettingsLaw) (h : step s = .next t) :
    t.SettingsLaw := by
  have hboth := (memoryWhole_stepLaw.and settingsLaw_stepLaw).step (s := s) (fun _ hu => hu)
    (fun ⟨hm, hs⟩ _ => ⟨memoryWhole_startUp hm, settingsLaw_startUp (pendingUpdate_of_memoryWhole hm) hs⟩) ⟨hm, hs⟩ h
  exact hboth.2

/-- Settles O57: each law is kept by the blocks' work, the zones' events, the window and every request, and so by every step. -/
theorem safeStatesStaySafe : Obligations.SafeStatesStaySafe := by
  refine ⟨fun s t hs h => ?_, fun s t hm hs h => settingsLaw_step hm hs h⟩
  obtain ⟨hmem, hlines, hwin⟩ := safe_iff.1 hs
  exact safe_iff.2 ⟨memoryWhole_step hmem h, lineLaws_step hlines h, windowLaw_step hwin h⟩

/-- Settles O60: each check is evaluated on the reset state, which holds no item, bin or patron. -/
theorem resetStateHoldsTheLaws : Obligations.ResetStateHoldsTheLaws := by
  refine ⟨by decide, settingsLaw_reset, ⟨by decide, fun t => ⟨fun h => ?_, ?_⟩⟩, fun b => ⟨rfl, rfl⟩⟩
  · cases h
  · rintro ⟨i, h, -⟩
    cases h

end Sys2Proof.Machine
end

section
/-! Bin operands, and the requests on segments and bins (Chapter 1). -/
namespace Sys2Proof.Machine

variable {s : State} {o : Operands}

/-! ## Numbers as indices -/

@[simp] theorem index?_val {n : Nat} (i : Fin n) : index? n i.val = some i := by simp [index?]

theorem index?_of_eq {n k : Nat} {i : Fin n} (h : k = i.val) : index? n k = some i := by rw [h, index?_val]

theorem index?_of_le {n k : Nat} (h : n ≤ k) : index? n k = none := by simp [index?, Nat.not_lt.2 h]

theorem station?_of_le (h : o.station ≤ 4) : o.station? = some ⟨o.station, by omega⟩ := by
  simp [Operands.station?, index?, Nat.lt_succ_of_le h]

/-! ## The end of a request, from its evaluation -/

theorem next_refused {code : Word} {e : Evaluation} {c : Code} (hw : s.windowFree = true)
    (he : e s.operands (s.storeRequest code) = .refuse c) :
    (.next (s.takeRequest code e) : Result) = .next (s.requestDone code c {}) :=
  congrArg _ (takeRequest_refused hw he)

theorem next_answered {code : Word} {e : Evaluation} {c : Code} {a : Answer} {t : State} (hw : s.windowFree = true)
    (he : e s.operands (s.storeRequest code) = .answer c a t) :
    (.next (s.takeRequest code e) : Result) = .next (t.endRequest c a) :=
  congrArg _ (takeRequest_answered hw he)

@[simp] theorem binOperand_storeRequest (code : Word) : (s.storeRequest code).binOperand o = s.binOperand o := rfl

@[simp] theorem enrolledOperand_storeRequest (code : Word) :
    (s.storeRequest code).enrolledOperand o = s.enrolledOperand o := rfl

@[simp] theorem segment_storeRequest (code : Word) (g : SegNo) : (s.storeRequest code).segment g = s.segment g := rfl

@[simp] theorem binRec?_storeRequest (code : Word) (b : BinNo) : (s.storeRequest code).binRec? b = s.binRec? b := rfl

/-! ## Bin operands (R4, R167, R181) -/

theorem binOperand_of_ok {n : Nat} (hst : o.form = 3 → o.station ≤ 4) (h : s.resolveBin o = .ok n) :
    s.binOperand o = s.checkNumber n := by
  have hc : (o.stationForm && decide (4 < o.station)) = false := by
    simpa [Operands.stationForm] using hst
  simp [State.binOperand, hc, h]

theorem binOperand_of_error {c : Code} (hst : o.form = 3 → o.station ≤ 4) (h : s.resolveBin o = .error c) :
    s.binOperand o = .error c := by
  have hc : (o.stationForm && decide (4 < o.station)) = false := by
    simpa [Operands.stationForm] using hst
  simp [State.binOperand, hc, h]

/-- The STATION form asks for a CONTEXT of 0–4 first (R166). -/
theorem binOperand_of_context (h3 : o.form = 3) (hst : 4 < o.station) : s.binOperand o = .error .badOperand := by
  simp [State.binOperand, Operands.stationForm, h3, hst]

/-- Form 0, BIN. -/
theorem binOperand_bin (h : o.form = 0) : s.binOperand o = s.checkNumber o.binField :=
  binOperand_of_ok (by omega) (by simp [State.resolveBin, h])

section
variable (h : o.form = 1)
include h

/-- Form 1, ITEM: the bin of a SHELVED or HELD item. -/
theorem resolveBin_item : s.resolveBin o = s.binOfItem o.itemField := by simp [State.resolveBin, h]

theorem binOperand_item_lying {i : Item} {b : BinNo} (ht : validTag o.itemField = true)
    (hi : s.item? o.itemField = some i) (hb : i.state = .shelved b ∨ i.state = .held b) :
    s.binOperand o = s.checkNumber b.val := by
  refine binOperand_of_ok (by omega) ?_
  obtain ⟨st, holds⟩ := i
  rw [resolveBin_item h]
  rcases hb with rfl | rfl <;> simp [State.binOfItem, ht, hi]

theorem binOperand_item_elsewhere {i : Item} (ht : validTag o.itemField = true) (hi : s.item? o.itemField = some i)
    (hb : ∀ c : BinNo, i.state ≠ .shelved c ∧ i.state ≠ .held c) : s.binOperand o = .error .wrongState := by
  refine binOperand_of_error (by omega) ?_
  obtain ⟨st, holds⟩ := i
  rw [resolveBin_item h]
  cases st with
  | shelved c => exact absurd rfl (hb c).1
  | held c => exact absurd rfl (hb c).2
  | _ => simp [State.binOfItem, ht, hi]

theorem binOperand_item_unknown (ht : validTag o.itemField = true) (hi : s.item? o.itemField = none) :
    s.binOperand o = .error .noRecord :=
  binOperand_of_error (by omega) (by rw [resolveBin_item h]; simp [State.binOfItem, ht, hi])

theorem binOperand_item_badTag (ht : validTag o.itemField = false) : s.binOperand o = .error .badOperand :=
  binOperand_of_error (by omega) (by rw [resolveBin_item h]; simp [State.binOfItem, ht])

end

section
variable (h : o.form = 2)
include h

/-- Form 2, SEGMENT+INDEX. -/
theorem resolveBin_index : s.resolveBin o = s.binOfIndex (o.lowByte 0) (o.lowByte 1) := by simp [State.resolveBin, h]

theorem binOperand_index_valid {g : SegNo} (hg : o.lowByte 0 = g.val) (hi : o.lowByte 1 ≤ 63)
    (hv : (s.segment g).valid = true) (hl : o.lowByte 1 < (s.segment g).length) :
    s.binOperand o = s.checkNumber
      (g.val * 64 + (if (s.segment g).direction = .up then o.lowByte 1 else 64 - (s.segment g).length + o.lowByte 1)) := by
  refine binOperand_of_ok (by omega) ?_
  rw [resolveBin_index h]
  cases hd : (s.segment g).direction <;> simp [State.binOfIndex, hg, hi, hv, hl, Segment.indexedOffset, hd]

theorem binOperand_index_outside {g : SegNo} (hg : o.lowByte 0 = g.val) (hi : o.lowByte 1 ≤ 63)
    (hv : (s.segment g).valid = false ∨ (s.segment g).length ≤ o.lowByte 1) : s.binOperand o = .error .length := by
  refine binOperand_of_error (by omega) ?_
  rw [resolveBin_index h]
  rcases hv with hv | hv <;> simp [State.binOfIndex, hg, hi, hv]

theorem binOperand_index_bad (hb : 31 < o.lowByte 0 ∨ 63 < o.lowByte 1) : s.binOperand o = .error .badOperand := by
  refine binOperand_of_error (by omega) ?_
  rw [resolveBin_index h, State.binOfIndex]
  split
  · rfl
  · rename_i g hg
    have hg' : o.lowByte 0 < 32 := by
      by_contra hge
      rw [index?_of_le (by omega)] at hg
      cases hg
    rw [if_neg (by omega)]

end

section
variable (h : o.form = 3)
include h

/-- Form 3, STATION: the presented bin of the CONTEXT station. -/
theorem resolveBin_station : s.resolveBin o = s.binOfStation o := by simp [State.resolveBin, h]

theorem binOperand_station_presented {k : PickNo} {b : BinNo} (hk : o.station = k.val) (hb : s.presented? k = some b) :
    s.binOperand o = s.checkNumber b.val := by
  refine binOperand_of_ok (by omega) ?_
  rw [resolveBin_station h]
  simp [State.binOfStation, Operands.pick?, hk, hb]

theorem binOperand_station_empty {k : PickNo} (hk : o.station = k.val) (hb : s.presented? k = none) :
    s.binOperand o = .error .notPresented := by
  refine binOperand_of_error (by omega) ?_
  rw [resolveBin_station h]
  simp [State.binOfStation, Operands.pick?, hk, hb]

theorem binOperand_station_return (hk : o.station = 4) : s.binOperand o = .error .notPresented := by
  refine binOperand_of_error (by omega) ?_
  rw [resolveBin_station h]
  simp [State.binOfStation, Operands.pick?, hk, index?]

end

/-- A form above 3 names no bin. -/
theorem binOperand_form_bad (h : 3 < o.form) : s.binOperand o = .error .badOperand := by
  refine binOperand_of_error (by omega) ?_
  obtain ⟨k, hk⟩ : ∃ k, o.form = k + 4 := ⟨o.form - 4, by omega⟩
  simp [State.resolveBin, hk]

/-- FETCH evaluates its bin operand first at a CONTEXT of 0–4 (R166). -/
theorem fetch_of_error {c : Code} (hst : o.station ≤ 4) (h : s.enrolledOperand o = .error c) : fetch o s = .refuse c := by
  simp [fetch, atContext, station?_of_le hst, h]

/-- Settles O1: the four forms and then the requests that take an operand. -/
theorem binOperandResolvesByForm : Obligations.BinOperandResolvesByForm := by
  refine ⟨fun s o => ⟨binOperand_bin, fun h i b ht hi => ⟨binOperand_item_lying h ht hi, binOperand_item_elsewhere h ht hi⟩,
    binOperand_item_unknown, binOperand_item_badTag, fun h g hg hi => ⟨binOperand_index_valid h hg hi,
      binOperand_index_outside h hg hi⟩, binOperand_index_bad, fun h k hk => ⟨fun b => binOperand_station_presented h hk,
      binOperand_station_empty h hk⟩, binOperand_station_return, binOperand_of_context, binOperand_form_bad⟩,
    fun s c hw => ⟨fun h => ?_, fun h => ⟨?_, ?_, ?_, ?_, fun hst => ?_⟩⟩⟩
  · exact next_refused hw (by simp [enrolBin, h])
  · exact next_refused hw (by simp [retireBin, h])
  · exact next_refused hw (by simp [setPlace, h])
  · exact next_refused hw (by simp [readBin, h])
  · exact next_refused hw (by simp [auditBin, auditBinUnder, h])
  · exact next_refused hw (fetch_of_error hst h)

end Sys2Proof.Machine
end

section
/-! The checks of a bin number, home positions, and the requests that create, remove and place bin records (Chapter 1). -/
namespace Sys2Proof.Machine

variable {s : State} {o : Operands} {d : Segment} {f : Nat}

/-! ## The checks of a bin number (R4) -/

theorem segment_segOf (b : BinNo) : s.segment (segOf b) = s.segmentOf b := rfl

theorem checkNumber_of_large {n : Nat} (h : 2047 < n) : s.checkNumber n = .error .badOperand := by
  simp [State.checkNumber, bin?, index?_of_le (Nat.succ_le_of_lt h)]

theorem checkNumber_val (b : BinNo) :
    s.checkNumber b.val =
      if (s.segmentOf b).valid && (s.segmentOf b).holdsOffset (offsetOf b) then .ok b else .error .length := by
  simp [State.checkNumber, bin?]

theorem checkNumber_invalid {b : BinNo} (h : (s.segmentOf b).valid = false) : s.checkNumber b.val = .error .length := by
  simp [checkNumber_val, h]

theorem holdsOffset_up (h : d.direction = .up) : d.holdsOffset f = decide (f < d.length) := by
  simp [Segment.holdsOffset, h]

theorem holdsOffset_down (h : d.direction = .down) (hf : f ≤ 63) : d.holdsOffset f = decide (64 - d.length ≤ f) := by
  simp [Segment.holdsOffset, h, hf]

theorem offsetOf_le (b : BinNo) : offsetOf b ≤ 63 := by unfold offsetOf; omega

theorem checkNumber_up {b : BinNo} (hv : (s.segmentOf b).valid = true) (hd : (s.segmentOf b).direction = .up) :
    s.checkNumber b.val = if b.val % 64 < (s.segmentOf b).length then .ok b else .error .length := by
  simp [checkNumber_val, hv, holdsOffset_up hd, offsetOf]

theorem checkNumber_down {b : BinNo} (hv : (s.segmentOf b).valid = true) (hd : (s.segmentOf b).direction = .down) :
    s.checkNumber b.val = if 64 - (s.segmentOf b).length ≤ b.val % 64 then .ok b else .error .length := by
  rw [checkNumber_val, hv, holdsOffset_down hd (offsetOf_le b)]
  simp [offsetOf]

/-! ## The record of a bin operand (R4) -/

theorem enrolledOperand_of_error {c : Code} (h : s.binOperand o = .error c) : s.enrolledOperand o = .error c := by
  simp [State.enrolledOperand, h]

theorem enrolledOperand_of_none {b : BinNo} (h : s.binOperand o = .ok b) (hr : s.binRec? b = none) :
    s.enrolledOperand o = .error .noRecord := by
  simp [State.enrolledOperand, h, hr]

theorem enrolledOperand_of_some {b : BinNo} {r : BinRec} (h : s.binOperand o = .ok b) (hr : s.binRec? b = some r) :
    s.enrolledOperand o = .ok (b, r) := by
  simp [State.enrolledOperand, h, hr]

/-! ## Home positions (R2) -/

theorem homePosition_up (h : d.direction = .up) : d.homePosition f = d.base + f := by simp [Segment.homePosition, h]

theorem homePosition_down (h : d.direction = .down) : d.homePosition f = d.base - (63 - f) := by
  simp [Segment.homePosition, h]

theorem lowest_up (h : d.direction = .up) : d.lowest = d.base := by simp [Segment.lowest, h]

theorem lowest_down (h : d.direction = .down) : d.lowest = d.base + 1 - d.length := by simp [Segment.lowest, h]

theorem highest_up (h : d.direction = .up) : d.highest = d.base + d.length - 1 := by simp [Segment.highest, h]

theorem highest_down (h : d.direction = .down) : d.highest = d.base := by simp [Segment.highest, h]

/-- The home position of a valid offset lies in the home range (R2). -/
theorem homePosition_mem_range (hf : f ≤ 63) (hr : d.length ≤ d.base + 1 ∨ d.direction = .up)
    (hh : d.holdsOffset f = true) : d.lowest ≤ d.homePosition f ∧ d.homePosition f ≤ d.highest := by
  cases hd : d.direction with
  | up =>
    rw [holdsOffset_up hd, decide_eq_true_eq] at hh
    rw [lowest_up hd, highest_up hd, homePosition_up hd]
    omega
  | down =>
    rw [holdsOffset_down hd hf, decide_eq_true_eq] at hh
    have hbase : d.length ≤ d.base + 1 := hr.resolve_right (by simp [hd])
    rw [lowest_down hd, highest_down hd, homePosition_down hd]
    omega

/-- Settles O2: the checks of a number, the record of an operand, then the arithmetic of the two directions. -/
theorem binNumberMapsToHomePosition : Obligations.BinNumberMapsToHomePosition := by
  refine ⟨fun s o => ⟨fun n => checkNumber_of_large, fun b => checkNumber_invalid, fun b => checkNumber_up,
    fun b => checkNumber_down, fun c => enrolledOperand_of_error, fun b => enrolledOperand_of_none,
    fun b r => enrolledOperand_of_some⟩, fun d f hf hl hl' => ⟨fun hd => ?_, fun hd hb => ?_, homePosition_mem_range hf,
    fun l => rfl⟩⟩
  · refine ⟨homePosition_up hd, lowest_up hd, highest_up hd, ?_⟩
    rw [holdsOffset_up hd, decide_eq_true_eq]
    omega
  · refine ⟨homePosition_down hd, ?_, highest_down hd, ?_⟩
    · rw [lowest_down hd]
      omega
    · rw [holdsOffset_down hd hf, decide_eq_true_eq]

/-! ## Checks in order -/

/-- Checks with the same outcomes and codes refuse alike. -/
theorem judged_of_evaluation {i : Instr} {code : Word} {e : Evaluation} {checks : List (Bool × Code)} {a : Answer}
    {t : State} {c : Code} (hi : exec i s = .next (s.takeRequest code e)) (hw : s.windowFree = true)
    (hok : firstFailing checks = none → e s.operands (s.storeRequest code) = .answer c a t)
    (hno : ∀ c', firstFailing checks = some c' → e s.operands (s.storeRequest code) = .refuse c') :
    Judged s i code checks (t.endRequest c a) :=
  ⟨fun h => hi.trans (next_answered hw (hok h)), fun c' h => hi.trans (next_refused hw (hno c' h))⟩

theorem isSome_binKind_ofCode (n : Nat) : (BinKind.ofCode n).isSome = decide (n ≤ 2) := by
  match n with
  | 0 | 1 | 2 => rfl
  | n + 3 => simp [BinKind.ofCode]

theorem isSome_targetPlace? (n : Nat) : (targetPlace? n).isSome = decide (n = 0 ∨ n = 9) := by
  unfold targetPlace?
  split <;> simp_all

/-! ## ENROL BIN, RETIRE BIN, SET PLACE (R12 to R14) -/

theorem judged_enrolBin {b : BinNo} (hw : s.windowFree = true) (h : s.binOperand s.operands = .ok b) :
    Judged s .enrolBin 0x01
      [(decide (s.operands.cell 2 ≤ 2 ∧ 1 ≤ s.operands.cell 3 ∧ s.operands.cell 3 ≤ 24), .badOperand),
       ((s.binRec? b).isNone, .duplicate)]
      ((((s.storeRequest 0x01).putBin b (newBin s.operands)).settle).endRequest .ok
        { a0 := word b.val, a1 := word (s.homeAisle b).val, a2 := word (s.homePosition b) }) := by
  have hchecks : enrolBinRefusal s.operands (s.storeRequest 0x01) b = firstFailing
      [(decide (s.operands.cell 2 ≤ 2 ∧ 1 ≤ s.operands.cell 3 ∧ s.operands.cell 3 ≤ 24), .badOperand),
       ((s.binRec? b).isNone, .duplicate)] := by
    simp [enrolBinRefusal, isSome_binKind_ofCode, Bool.and_assoc]
  refine judged_of_evaluation rfl hw (fun hn => ?_) fun c hc => ?_
  · rw [← hchecks] at hn
    simp only [enrolBin, binOperand_storeRequest, h, hn]
    rfl
  · rw [← hchecks] at hc
    simp only [enrolBin, binOperand_storeRequest, h, hc]

theorem judged_retireBin {b : BinNo} {r : BinRec} (hw : s.windowFree = true)
    (h : s.enrolledOperand s.operands = .ok (b, r)) :
    Judged s .retireBin 0x02
      [(decide (r.place = .home ∧ r.itemCount = 0 ∧ r.pickedOut = 0 ∧ r.holder = none), .inUse)]
      ((s.eraseBin b).requestDone 0x02 .ok {}) := by
  have hret : r.retirable = decide (r.place = .home ∧ r.itemCount = 0 ∧ r.pickedOut = 0 ∧ r.holder = none) := by
    cases h : r.holder <;> simp [BinRec.retirable, Bool.and_assoc, h]
  rw [← hret]
  refine judged_of_evaluation (t := (s.storeRequest 0x02).eraseBin b) rfl hw (fun hn => ?_) fun c hc => ?_
  · simp only [firstFailing_eq_none, List.mem_singleton, forall_eq] at hn
    simp [retireBin, h, hn]
  · cases hr : r.retirable <;> simp [firstFailing, hr] at hc
    simp [retireBin, h, hr, hc]

theorem judged_setPlace {b : BinNo} {r : BinRec} (hw : s.windowFree = true)
    (h : s.enrolledOperand s.operands = .ok (b, r)) :
    Judged s .setPlace 0x03
      [(decide (s.operands.cell 2 = 0 ∨ s.operands.cell 2 = 9), .badOperand),
       (decide (r.place = .unverified ∨ r.place = .missing), .wrongPlace),
       (r.holder.isNone, .inUse)]
      ((((s.storeRequest 0x03).putBin b
        { r with place := if s.operands.cell 2 = 0 then .home else .missing }).settle).endRequest .ok {}) := by
  have hchecks : setPlaceRefusal s.operands r = firstFailing
      [(decide (s.operands.cell 2 = 0 ∨ s.operands.cell 2 = 9), .badOperand),
       (decide (r.place = .unverified ∨ r.place = .missing), .wrongPlace),
       (r.holder.isNone, .inUse)] := by
    simp [setPlaceRefusal, isSome_targetPlace?]
  refine judged_of_evaluation rfl hw (fun hn => ?_) fun c hc => ?_
  · have hplace : (targetPlace? (s.operands.cell 2)).getD .missing =
        if s.operands.cell 2 = 0 then .home else .missing := by
      simp only [firstFailing_eq_none, List.forall_mem_cons, decide_eq_true_eq] at hn
      rcases hn.1 with h0 | h9 <;> simp [targetPlace?, *]
    rw [← hchecks] at hn
    simp [setPlace, h, hn, hplace]
  · rw [← hchecks] at hc
    simp [setPlace, h, hc]

/-- Settles O3: each request's checks are the ones listed. -/
theorem binRecordsAreCreatedRemovedAndPlaced : Obligations.BinRecordsAreCreatedRemovedAndPlaced :=
  fun _ hw => ⟨fun _ h => judged_enrolBin hw h, fun _ _ h => ⟨judged_retireBin hw h, judged_setPlace hw h⟩⟩

end Sys2Proof.Machine
end

section
/-! The reads of bins and segments, and DEFINE SEGMENT (Chapter 1). -/
namespace Sys2Proof.Machine

variable {s : State} {o : Operands} {d : Segment} {g : SegNo}

/-! ## READ BIN (R15) -/

theorem qualifier_lt {p : Place} {q : Nat} (h : p.qualifier = some q) : q < 8 := by
  cases p with
  | atStation x => cases x with
    | pick k => cases h; simp only [Dest.code]; omega
    | ret k => cases k <;> cases h <;> decide
  | onShuttle a | portOut a | portIn a | stationOut a => cases h; omega
  | _ => cases h

theorem qualifierField_of_some {p : Place} {q : Nat} (h : p.qualifier = some q) : p.qualifierField = q := by
  simp [Place.qualifierField, h]

theorem qualifierField_lt (p : Place) : p.qualifierField < 8 := by
  unfold Place.qualifierField
  split
  · exact qualifier_lt ‹_›
  · exact BitVec.isLt _

theorem exec_readBin {b : BinNo} {r : BinRec} (hw : s.windowFree = true) (h : s.enrolledOperand s.operands = .ok (b, r)) :
    exec .readBin s = .next (s.requestDone 0x04 .ok (s.binAnswer b r)) :=
  next_answered (e := readBin) (t := s.storeRequest 0x04) hw (by simp only [readBin, enrolledOperand_storeRequest, h]; rfl)

/-! ## READ SEGMENT and CLEAR CHANGED (R8, R10) -/

theorem length_enrolledIn (g : SegNo) :
    (s.enrolledIn g).length = (s.tab.bins.filter fun e => e.1 / 64 == g.val).length := by
  simp [State.enrolledIn, List.filter_map, Function.comp_def]

theorem exec_readSegment (hw : s.windowFree = true) (h : s.operands.cell 0 = g.val) :
    exec .readSegment s = .next (s.requestDone 0x06 .ok (s.segmentAnswer g)) :=
  next_answered (e := readSegment) (t := s.storeRequest 0x06) hw (by simp only [readSegment, index?_of_eq h]; rfl)

theorem exec_clearChanged (hw : s.windowFree = true) (h : s.operands.cell 0 = g.val) :
    exec .clearChanged s = .next ((s.putSegment g { s.segment g with changed := false }).requestDone 0x08 .ok
      { a0 := word (flagCode (s.segment g).changed) }) :=
  next_answered (e := clearChanged) (t := (s.storeRequest 0x08).putSegment g { s.segment g with changed := false }) hw
    (by simp only [clearChanged, index?_of_eq h, segment_storeRequest])

section
variable (hw : s.windowFree = true) (h : 31 < s.operands.cell 0)
include hw h

theorem exec_readSegment_bad : exec .readSegment s = .next (s.requestDone 0x06 .badOperand {}) :=
  next_refused (e := readSegment) hw (by simp only [readSegment, index?_of_le (Nat.succ_le_of_lt h)])

theorem exec_clearChanged_bad : exec .clearChanged s = .next (s.requestDone 0x08 .badOperand {}) :=
  next_refused (e := clearChanged) hw (by simp only [clearChanged, index?_of_le (Nat.succ_le_of_lt h)])

theorem exec_defineSegment_bad : exec .defineSegment s = .next (s.requestDone 0x05 .badOperand {}) :=
  next_refused (e := defineSegment) hw (by simp only [defineSegment, index?_of_le (Nat.succ_le_of_lt h)])

end

/-! ## READ CHANGED (R10) -/

/-- Bit n of the marks of a list of segments is the flag of the segment at n. -/
theorem testBit_changedMarks : ∀ (l : List SegNo) (n : Nat) (h : n < l.length),
    (s.changedMarks l).testBit n = (s.segment l[n]).changed
  | g :: l, 0, _ => by cases hc : (s.segment g).changed <;> simp [State.changedMarks, hc, flagCode, Nat.testBit_zero]
  | g :: l, n + 1, h => by
    have hhalf : s.changedMarks (g :: l) / 2 = s.changedMarks l := by
      have hflag : flagCode (s.segment g).changed ≤ 1 := by unfold flagCode; split <;> omega
      rw [State.changedMarks]
      omega
    rw [Nat.testBit_succ, hhalf, testBit_changedMarks l n (Nat.lt_of_succ_lt_succ h)]
    rfl

theorem getLsbD_word {n i : Nat} (h : i < 16) : (word n).getLsbD i = n.testBit i := by
  rw [word, BitVec.getLsbD_ofNat, decide_eq_true h, Bool.true_and]

theorem getLsbD_lowMarks (n : Fin 16) :
    (word (s.changedMarks (segmentNumbers.take 16))).getLsbD n.val = (s.segment ⟨n.val, by omega⟩).changed := by
  rw [getLsbD_word n.isLt, testBit_changedMarks _ _ (by simp [segmentNumbers])]
  exact congrArg (fun g => (s.segment g).changed) (by revert n; decide)

theorem getLsbD_highMarks (n : Fin 16) :
    (word (s.changedMarks (segmentNumbers.drop 16))).getLsbD n.val = (s.segment ⟨n.val + 16, by omega⟩).changed := by
  rw [getLsbD_word n.isLt, testBit_changedMarks _ _ (by simp [segmentNumbers])]
  exact congrArg (fun g => (s.segment g).changed) (by revert n; decide)

/-- Settles O5: the reads answer from the record, and the marks of READ CHANGED bit by bit. -/
theorem binAndSegmentReadsAnswer : Obligations.BinAndSegmentReadsAnswer := by
  refine fun s hw => ⟨fun b r h => ⟨r.place.qualifierField, qualifierField_lt _, fun v => qualifierField_of_some, ?_⟩,
    fun g h => ⟨?_, exec_clearChanged hw h⟩,
    fun h => ⟨exec_readSegment_bad hw h, exec_clearChanged_bad hw h, exec_defineSegment_bad hw h⟩,
    _, _, next_answered (e := readChanged) (t := s.storeRequest 0x07) hw rfl,
    fun n => ⟨getLsbD_lowMarks n, getLsbD_highMarks n⟩⟩
  · rw [exec_readBin hw h, State.binAnswer]
    cases r.holder <;> rfl
  · rw [exec_readSegment hw h, State.segmentAnswer, length_enrolledIn]

end Sys2Proof.Machine
end

section
/-! DEFINE SEGMENT (R6, R7). -/
namespace Sys2Proof.Machine

variable {s : State} {o : Operands} {old d : Segment} {g : SegNo}

/-! ## The descriptor asked for (R6 checks 1 and 2) -/

@[simp] theorem direction_ofCode_code (x : Direction) : Direction.ofCode x.code = some x := by cases x <;> rfl

@[simp] theorem accessClass_ofCode_code (x : AccessClass) : AccessClass.ofCode x.code = some x := by cases x <;> rfl

theorem direction_ofCode_eq_none {n : Nat} : Direction.ofCode n = none ↔ 1 < n := by
  match n with
  | 0 | 1 => simp [Direction.ofCode]
  | n + 2 => simp [Direction.ofCode]

theorem accessClass_ofCode_eq_none {n : Nat} : AccessClass.ofCode n = none ↔ 3 < n := by
  match n with
  | 0 | 1 | 2 | 3 => simp [AccessClass.ofCode]
  | n + 4 => simp [AccessClass.ofCode]

theorem index?_eq_none {n k : Nat} : index? n k = none ↔ n ≤ k := by simp [index?]

theorem descriptor?_invalid (h : o.cell 1 = 0) : o.descriptor? old = some { old with valid := false } := by
  simp [Operands.descriptor?, h, flag?]

theorem descriptor?_valid (h : o.cell 1 = 1) {a : Aisle} {dir : Direction} {cls : AccessClass} (ha : o.cell 2 = a.val)
    (hbase : o.cell 3 ≤ 511) (hmin : 1 ≤ o.cell 4) (hmax : o.cell 4 ≤ 64) (hdir : o.highByte 5 = dir.code)
    (hcls : o.lowByte 5 = cls.code) :
    o.descriptor? old = some { valid := true, aisle := a, base := o.cell 3, length := o.cell 4, direction := dir, cls := cls
                               changed := old.changed } := by
  simp [Operands.descriptor?, h, flag?, ha, hdir, hcls, hbase, hmin, hmax]

theorem descriptor?_eq_none : o.descriptor? old = none ↔ 1 < o.cell 1 ∨ (o.cell 1 = 1 ∧
    (5 < o.cell 2 ∨ 511 < o.cell 3 ∨ o.cell 4 = 0 ∨ 64 < o.cell 4 ∨ 1 < o.highByte 5 ∨ 3 < o.lowByte 5)) := by
  match hv : o.cell 1 with
  | 0 => simp [descriptor?_invalid hv]
  | 1 =>
    have haisle := index?_eq_none (n := 6) (k := o.cell 2)
    have hdir := direction_ofCode_eq_none (n := o.highByte 5)
    have hcls := accessClass_ofCode_eq_none (n := o.lowByte 5)
    simp only [Operands.descriptor?, hv, flag?]
    generalize index? 6 (o.cell 2) = a at haisle ⊢
    generalize Direction.ofCode (o.highByte 5) = dir at hdir ⊢
    generalize AccessClass.ofCode (o.lowByte 5) = cls at hcls ⊢
    cases a with
    | none => simp at haisle ⊢; omega
    | some a =>
      cases dir with
      | none => simp at hdir ⊢; omega
      | some dir =>
        cases cls with
        | none => simp at hcls ⊢; omega
        | some cls => simp at haisle hdir hcls ⊢; omega
  | n + 2 => simp [Operands.descriptor?, hv, flag?]

/-! ## The further checks (R6 checks 3 to 7) -/

theorem firstFailing_pass {b : Bool} {c : Code} {l : List (Bool × Code)} (h : b = true) :
    firstFailing ((b, c) :: l) = firstFailing l := by rw [h]; rfl

theorem firstFailing_fail {b : Bool} {c : Code} {l : List (Bool × Code)} (h : ¬ b = true) :
    firstFailing ((b, c) :: l) = some c := by rw [Bool.eq_false_of_not_eq_true h]; rfl

theorem mem_segmentNumbers (h : SegNo) : h ∈ segmentNumbers := by revert h; decide

/-- Check 3: the home range lies in the rack. -/
def Segment.InRack (d : Segment) : Prop :=
  if d.direction = .up then d.base + d.length ≤ 512 else d.length ≤ d.base + 1

/-- Check 5's change of a descriptor. -/
def Segment.Moves (old d : Segment) : Prop :=
  old.valid ≠ d.valid ∨ old.aisle ≠ d.aisle ∨ old.base ≠ d.base ∨ old.direction ≠ d.direction

/-- A bin is enrolled in a segment. -/
def State.Used (s : State) (g : SegNo) : Prop := ∃ e ∈ s.tab.bins, e.1 / 64 = g.val

/-- An enrolled bin of a segment lies outside a descriptor. -/
def State.Outside (s : State) (g : SegNo) (d : Segment) : Prop :=
  ∃ e ∈ s.tab.bins, e.1 / 64 = g.val ∧ d.holdsOffset (e.1 % 64) = false

/-- Another valid segment's home range shares a position. -/
def State.Overlap (s : State) (g : SegNo) (d : Segment) : Prop :=
  ∃ h : SegNo, h ≠ g ∧ (s.segment h).valid = true ∧ (s.segment h).aisle = d.aisle
    ∧ d.lowest ≤ (s.segment h).highest ∧ (s.segment h).lowest ≤ d.highest

theorem inRack_iff : d.inRack = true ↔ d.InRack := by
  cases hd : d.direction <;> simp [Segment.inRack, Segment.InRack, hd]

theorem moves_iff : old.moves d = true ↔ old.Moves d := by
  simp [Segment.moves, Segment.Moves, or_assoc]

theorem differs_iff : old.differs d = true ↔ old.Moves d ∨ old.length ≠ d.length := by
  simp [Segment.differs, moves_iff]

theorem enrolledIn_isEmpty : (s.enrolledIn g).isEmpty = true ↔ ¬ s.Used g := by
  simp [State.enrolledIn, State.Used, List.filter_eq_nil_iff]

theorem holdsEnrolled_iff : s.holdsEnrolled g d = true ↔ ¬ s.Outside g d := by
  simp [State.holdsEnrolled, State.enrolledIn, State.Outside, or_iff_not_imp_left]

theorem overlapsOther_iff : s.overlapsOther g d = true ↔ s.Overlap g d := by
  simp [State.overlapsOther, State.Overlap, Segment.overlaps, mem_segmentNumbers, and_assoc, eq_comm (a := d.aisle)]

/-! ## The request -/

theorem exec_defineSegment_noDescriptor (hw : s.windowFree = true) (hg : s.operands.cell 0 = g.val)
    (h : s.operands.descriptor? (s.segment g) = none) :
    exec .defineSegment s = .next (s.requestDone 0x05 .badOperand {}) :=
  next_refused (e := defineSegment) hw (by simp only [defineSegment, index?_of_eq hg, segment_storeRequest, h])

section
variable (hw : s.windowFree = true) (hg : s.operands.cell 0 = g.val) (h : s.operands.descriptor? (s.segment g) = some d)
include hw hg h

theorem exec_defineSegment_refused {c : Code} (hc : s.defineRefusal g d = some c) :
    exec .defineSegment s = .next (s.requestDone 0x05 c {}) := by
  have hc' : (s.storeRequest 0x05).defineRefusal g d = some c := hc
  exact next_refused (e := defineSegment) hw (by simp only [defineSegment, index?_of_eq hg, segment_storeRequest, h, hc'])

theorem exec_defineSegment_accepted (hc : s.defineRefusal g d = none) :
    exec .defineSegment s = .next ((s.putSegment g d).requestDone 0x05 .ok d.rangeAnswer) := by
  have hc' : (s.storeRequest 0x05).defineRefusal g d = none := hc
  exact next_answered (e := defineSegment) (t := (s.storeRequest 0x05).putSegment g d) hw
    (by simp only [defineSegment, index?_of_eq hg, segment_storeRequest, h, hc'])

end

/-! ## The checks in order -/

theorem rackCheck_iff : (!d.valid || d.inRack) = true ↔ (d.valid = true → d.InRack) := by
  simp [inRack_iff, or_iff_not_imp_left]

theorem pendingCheck_iff : (!old.differs d || !old.changed) = true ↔
    (old.Moves d ∨ old.length ≠ d.length → old.changed = false) := by
  rw [← differs_iff]; simp [or_iff_not_imp_left]

theorem usedCheck_iff : (!old.moves d || (s.enrolledIn g).isEmpty) = true ↔ (old.Moves d → ¬ s.Used g) := by
  rw [← moves_iff, ← enrolledIn_isEmpty]; simp [or_iff_not_imp_left]

theorem outsideCheck_iff : (old.moves d || old.length == d.length || s.holdsEnrolled g d) = true ↔
    (¬ old.Moves d ∧ old.length ≠ d.length → ¬ s.Outside g d) := by
  rw [← moves_iff, ← holdsEnrolled_iff]; simp [or_iff_not_imp_left]

theorem overlapCheck_iff : (!d.valid || !old.differs d || !s.overlapsOther g d) = true ↔
    (d.valid = true ∧ (old.Moves d ∨ old.length ≠ d.length) → ¬ s.Overlap g d) := by
  rw [← differs_iff, ← overlapsOther_iff]; simp [or_iff_not_imp_left]

section
variable (hrack : d.valid = true → d.InRack)
  (hpending : ((s.segment g).Moves d ∨ (s.segment g).length ≠ d.length) → (s.segment g).changed = false)
  (hused : (s.segment g).Moves d → ¬ s.Used g)
  (houtside : ¬ (s.segment g).Moves d ∧ (s.segment g).length ≠ d.length → ¬ s.Outside g d)
  (hoverlap : d.valid = true ∧ ((s.segment g).Moves d ∨ (s.segment g).length ≠ d.length) → ¬ s.Overlap g d)

theorem defineRefusal_rack (h : ¬ (d.valid = true → d.InRack)) : s.defineRefusal g d = some .badOperand :=
  firstFailing_fail (mt rackCheck_iff.1 h)

include hrack in
theorem defineRefusal_pending
    (h : ¬ ((s.segment g).Moves d ∨ (s.segment g).length ≠ d.length → (s.segment g).changed = false)) :
    s.defineRefusal g d = some .changedPending := by
  rw [State.defineRefusal, firstFailing_pass (rackCheck_iff.2 hrack), firstFailing_fail (mt pendingCheck_iff.1 h)]

include hrack hpending in
theorem defineRefusal_used (h : ¬ ((s.segment g).Moves d → ¬ s.Used g)) : s.defineRefusal g d = some .segmentInUse := by
  rw [State.defineRefusal, firstFailing_pass (rackCheck_iff.2 hrack), firstFailing_pass (pendingCheck_iff.2 hpending),
    firstFailing_fail (mt usedCheck_iff.1 h)]

include hrack hpending hused in
theorem defineRefusal_outside (h : ¬ (¬ (s.segment g).Moves d ∧ (s.segment g).length ≠ d.length → ¬ s.Outside g d)) :
    s.defineRefusal g d = some .segmentInUse := by
  rw [State.defineRefusal, firstFailing_pass (rackCheck_iff.2 hrack), firstFailing_pass (pendingCheck_iff.2 hpending),
    firstFailing_pass (usedCheck_iff.2 hused), firstFailing_fail (mt outsideCheck_iff.1 h)]

include hrack hpending hused houtside in
theorem defineRefusal_overlap
    (h : ¬ (d.valid = true ∧ ((s.segment g).Moves d ∨ (s.segment g).length ≠ d.length) → ¬ s.Overlap g d)) :
    s.defineRefusal g d = some .overlap := by
  rw [State.defineRefusal, firstFailing_pass (rackCheck_iff.2 hrack), firstFailing_pass (pendingCheck_iff.2 hpending),
    firstFailing_pass (usedCheck_iff.2 hused), firstFailing_pass (outsideCheck_iff.2 houtside),
    firstFailing_fail (mt overlapCheck_iff.1 h)]

include hrack hpending hused houtside hoverlap in
theorem defineRefusal_none : s.defineRefusal g d = none := by
  rw [State.defineRefusal, firstFailing_pass (rackCheck_iff.2 hrack), firstFailing_pass (pendingCheck_iff.2 hpending),
    firstFailing_pass (usedCheck_iff.2 hused), firstFailing_pass (outsideCheck_iff.2 houtside),
    firstFailing_pass (overlapCheck_iff.2 hoverlap)]
  rfl

end

/-- Settles O4: the descriptor asked for, then the further checks in their order. -/
theorem defineSegmentIsCheckedAndWritten : Obligations.DefineSegmentIsCheckedAndWritten := by
  refine fun s g hw hg => ⟨descriptor?_invalid, fun h1 a dir cls => descriptor?_valid h1, descriptor?_eq_none,
    exec_defineSegment_noDescriptor hw hg, fun d hd => ⟨fun h => ?_, fun hrack h => ?_, fun hrack hpending h => ?_,
    fun hrack hpending hused houtside h => ?_, fun hrack hpending hused houtside hoverlap => ?_⟩⟩
  · exact exec_defineSegment_refused hw hg hd (defineRefusal_rack fun hr => h.2 (hr h.1))
  · exact exec_defineSegment_refused hw hg hd (defineRefusal_pending hrack fun hp => by simp [hp h.1] at h)
  · rcases h with ⟨hm, hu⟩ | ⟨hm, hr, ho⟩
    · exact exec_defineSegment_refused hw hg hd (defineRefusal_used hrack hpending fun hn => hn hm hu)
    · exact exec_defineSegment_refused hw hg hd
        (defineRefusal_outside hrack hpending (fun hn => absurd hn hm) fun hn => hn ⟨hm, hr⟩ ho)
  · obtain ⟨hv, hdiff, ho⟩ := h
    exact exec_defineSegment_refused hw hg hd
      (defineRefusal_overlap hrack hpending hused houtside fun hn => hn ⟨hv, hdiff⟩ ho)
  · exact exec_defineSegment_accepted hw hg hd (defineRefusal_none hrack hpending hused houtside hoverlap)

end Sys2Proof.Machine
end

section
/-! Reading over writing: items, patrons and bins. -/
namespace Sys2Proof.Machine

variable {s : State}

/-! ## Changes of a bin record -/

/-- A change of one record, read at any bin, is a change of what was read. -/
theorem binRec?_changeBin_map (b c : BinNo) (f : BinRec → BinRec) :
    (s.changeBin b f).binRec? c = (s.binRec? c).map fun r => if c = b then f r else r := by
  rw [binRec?_changeBin]
  by_cases h : c = b
  · simp [h]
  · simp [h]

theorem binRec?_countIn (b c : BinNo) : (s.countIn b).binRec? c =
    (s.binRec? c).map fun r => if c = b then { r with itemCount := r.itemCount + 1 } else r :=
  binRec?_changeBin_map b c _

theorem binRec?_countOut (b c : BinNo) : (s.countOut b).binRec? c =
    (s.binRec? c).map fun r => if c = b then { r with itemCount := r.itemCount - 1 } else r :=
  binRec?_changeBin_map b c _

/-! ## The changed flag (R9) -/

theorem segment_markChanged (b : BinNo) (g : SegNo) :
    (s.markChanged b).segment g = if g = segOf b then { s.segment g with changed := true } else s.segment g := by
  rw [State.markChanged, segment_putSegment]
  by_cases h : g = segOf b
  · simp [h, segment_segOf]
  · simp [h, Ne.symm h]

/-! ## Records of items and patrons -/

theorem item?_eraseItem (h : tableSorted s.tab.items = true) (t u : Tag) :
    (s.eraseItem t).item? u = if u = t then none else s.item? u := by
  split
  · rename_i e; subst e; exact tableFind_erase_self _ h
  · exact tableFind_erase_ne ‹_› _

theorem patron?_erasePatron (h : tableSorted s.tab.patrons = true) (n m : PatronNo) :
    (s.erasePatron n).patron? m = if m = n then none else s.patron? m := by
  split
  · rename_i e; subst e; exact tableFind_erase_self _ h
  · exact tableFind_erase_ne ‹_› _

theorem binRec?_eraseBin (h : tableSorted s.tab.bins = true) (b c : BinNo) :
    (s.eraseBin b).binRec? c = if c = b then none else s.binRec? c := by
  split
  · rename_i e; subst e; exact tableFind_erase_self _ h
  · exact binRec?_eraseBin_ne s ‹_›

/-- A change of one record, read at any patron, is a change of what was read. -/
theorem patron?_changePatron_map (n m : PatronNo) (f : Patron → Patron) :
    (s.changePatron n f).patron? m = (s.patron? m).map fun p => if m = n then f p else p := by
  rw [patron?_changePatron]
  by_cases h : m = n
  · simp [h]
  · simp [h]

/-- Settles O41: one rule of reading over writing for each operation. -/
theorem recordsReadBackAsWritten : Obligations.RecordsReadBackAsWritten :=
  fun s => ⟨item?_putItem s, patron?_putPatron s, binRec?_putBin s, binRec?_countIn, binRec?_countOut,
    fun b c => binRec?_changeBin_map b c _, fun b c => binRec?_changeBin_map b c _,
    fun b g => ⟨segment_markChanged b g, segment_markChanged b g, rfl, rfl⟩, item?_eraseItem, patron?_erasePatron,
    binRec?_eraseBin, fun n m => patron?_changePatron_map n m _, fun n m => patron?_changePatron_map n m _⟩

end Sys2Proof.Machine
end

section
/-! RESET and START_UP (R169, R170). -/
namespace Sys2Proof.Machine

variable {s : State}

/-! ## The records a reset makes anew -/

/-- The drop list is the DROPPED items' tags, in the order of the item table (R136). -/
theorem droppedTags_eq : ∀ t : Table Item,
    droppedTags t = (t.filter fun e => decide (e.2.state = .dropped)).map (·.1)
  | [] => rfl
  | (k, i) :: t => by
    by_cases h : i.state = .dropped <;> simp [droppedTags, h, droppedTags_eq t]

/-- A power-on reset leaves a bin its place only at HOME, UNVERIFIED and MISSING (R22). -/
theorem afterReset_lostByPowerOn (r : BinRec) : r.afterReset Place.lostByPowerOn = { r with
    holder := none
    place := match r.place with
      | .home => .home | .unverified => .unverified | .missing => .missing | _ => .unverified } := by
  obtain ⟨_, _, _, _, place, _⟩ := r
  cases place <;> rfl

/-- A soft reset takes a bin's place on a shuttle, in the crossing and STRANDED (R22). -/
theorem afterReset_lostBySoftReset (r : BinRec) : r.afterReset Place.lostBySoftReset = { r with
    holder := none
    place := match r.place with
      | .onShuttle _ => .unverified | .crossing => .unverified | .stranded => .unverified | p => p } := by
  obtain ⟨_, _, _, _, place, _⟩ := r
  cases place <;> rfl

/-! ## The tables at start-up -/

theorem startTables_formatted (h : s.formatMark = true) :
    s.startTables =
      { s.updatedTables with bins := tableMap (BinRec.afterReset Place.lostByPowerOn) s.updatedTables.bins } := by
  simp [State.startTables, h]

theorem startTables_unformatted (h : s.formatMark = false) : s.startTables = formattedTables := by
  simp only [State.startTables, h]
  rfl

theorem getElem_replicate_fin {α : Type} {n : Nat} (x : α) (i : Fin n) : (Vector.replicate n x)[i] = x := by simp

theorem getElem_replicate_ite {α : Type} {n : Nat} (b : Bool) (x y : α) (i : Fin n) :
    (if b = true then Vector.replicate n x else Vector.replicate n y)[i] = if b = true then x else y := by
  split <;> simp

/-- The two latches of a zone sealed at start-up, and no other. -/
theorem getLsbD_startLatches (c : Cause) (b : Bool) :
    (if b = true then 0b11#11 else 0).getLsbD (c.number - 1) =
      (decide (c = .zoneAlarm ∨ c = .zoneSealed) && b) := by
  cases c <;> cases b <;> rfl

/-- START_UP on a lost memory with inactive lines and nothing under way gives the reset state (R170). -/
theorem startUp_assertReset_lost (halm : s.fiu.alm = Vector.replicate 4 false) (hpend : s.pending = [])
    (hout : s.dataOut = 0) (hlgo : s.lc.lgoPulses = 0) : (s.assertReset .lost).startUp = State.reset := by
  have htab : (s.assertReset .lost).startTables = formattedTables := startTables_unformatted rfl
  have hfiu : (s.assertReset .lost).fiu.alm = Vector.replicate 4 false := halm
  have hlane : (s.assertReset .lost).lc.lgoPulses = 0 := hlgo
  have hdata : (s.assertReset .lost).dataOut = 0 := hout
  have hrest : (s.assertReset .lost).pending = [] := hpend
  rw [startUp_eq, htab, hfiu, hlane, hdata, hrest]
  rfl

/-! ## The blocks after START_UP -/

theorem tab_startUp : s.startUp.tab = s.startTables := by rw [startUp_eq]

theorem dropList_startUp : s.startUp.dropList = droppedTags s.startTables.items := by rw [startUp_eq]

theorem ou_startUp : s.startUp.ou = resetOrderUnit := by rw [startUp_eq]

theorem alc_startUp : s.startUp.alc = resetLinkUnit := by rw [startUp_eq]

theorem lc_startUp :
    s.startUp.lc = { resetLaneUnit with lgoPulses := s.lc.lgoPulses, lstop := s.fiu.alm[frontHall] } := by rw [startUp_eq]

theorem su_startUp : s.startUp.su = { resetStationUnit with
    states := if s.fiu.alm[frontHall] then Vector.replicate 5 (.fireHeld false) else Vector.replicate 5 .closed } := by
  rw [startUp_eq]

theorem au_startUp :
    s.startUp.au = { latches := if s.fiu.alm.toList.any id then 0b11#11 else 0, fault := none } := by rw [startUp_eq]

theorem binRec?_startUp (h : s.formatMark = true) (b : BinNo) :
    s.startUp.binRec? b = (tableFind b.val s.updatedTables.bins).map (BinRec.afterReset Place.lostByPowerOn) := by
  rw [State.binRec?, tab_startUp, startTables_formatted h, tableFind_map]

theorem stationState_startUp (n : StationNo) :
    s.startUp.stationState n = if s.fiu.alm[frontHall] then .fireHeld false else .closed := by
  rw [State.stationState, su_startUp]
  exact getElem_replicate_ite ..

/-! ## The volatile blocks' reset values, place by place -/

section
variable {u : State}

theorem order?_of_reset (h : u.ou = resetOrderUnit) (o : OrderNo) : u.order? o = none := by
  rw [State.order?, h]; exact getElem_replicate_fin ..

theorem queue_of_reset (h : u.ou = resetOrderUnit) (a : Aisle) : u.queue a = [] := by
  rw [State.queue, h]; exact getElem_replicate_fin ..

theorem slot_of_reset (h : u.alc = resetLinkUnit) (a : Aisle) : u.slot a = none := by
  rw [State.slot, h]; exact getElem_replicate_fin ..

theorem shuttle_of_reset (h : u.alc = resetLinkUnit) (a : Aisle) : u.shuttle a = resetShuttle := by
  rw [State.shuttle, h]; exact getElem_replicate_fin ..

end

theorem outPlace_startUp (a : Aisle) : s.startUp.outPlace a = none := by
  rw [State.outPlace, lc_startUp]; exact getElem_replicate_fin ..

theorem inPlace_startUp (a : Aisle) : s.startUp.inPlace a = none := by
  rw [State.inPlace, lc_startUp]; exact getElem_replicate_fin ..

theorem presentationQueue_startUp (k : PickNo) : s.startUp.presentationQueue k = [] := by
  rw [State.presentationQueue, su_startUp]; exact getElem_replicate_fin ..

theorem reserved_startUp (k : PickNo) : s.startUp.reserved k = 0 := by
  rw [State.reserved, su_startUp]; exact getElem_replicate_fin ..

theorem stationOut_startUp (n : StationNo) : s.startUp.stationOut n = none := by
  rw [State.stationOut, su_startUp]; exact getElem_replicate_fin ..

theorem position_startUp (p : Position) : s.startUp.position p = .empty := by
  cases p <;> rw [State.position, su_startUp] <;> rfl

/-! ## The obligation's clauses -/

/-- The tables of a memory whose format mark stands (R20, R22). -/
theorem startUp_keeps_tables (h : s.formatMark = true) :
    s.startUp.tab = { s.updatedTables with bins := s.startUp.tab.bins } := by
  rw [tab_startUp, startTables_formatted h]

/-- The tables of a memory that start-up formats (R21, R35). -/
theorem startUp_formats_tables (h : s.formatMark = false) : s.startUp.tab = formattedTables := by
  rw [tab_startUp, startTables_unformatted h]

theorem segment_formatted {u : State} (h : u.tab = formattedTables) (g : SegNo) : u.segment g = formattedSegment := by
  rw [State.segment, h]; exact getElem_replicate_fin ..

/-- Settles O55: `startUp_eq` gives the state after START_UP block by block. -/
theorem powerOnResetRebuildsTheState : Obligations.PowerOnResetRebuildsTheState := by
  refine ⟨fun s m => by cases m <;> rfl, fun s => ⟨fun h => ?_, fun h => ?_, ?_⟩, fun s => startUp_assertReset_lost⟩
  · simp [exec, execStartUp, h]
  · simp [exec, execStartUp, h]
  have hou := ou_startUp (s := s)
  have halc := alc_startUp (s := s)
  have hlc := lc_startUp (s := s)
  refine ⟨by rw [startUp_eq], by rw [startUp_eq], by rw [startUp_eq], by rw [startUp_eq],
    fun hf => ⟨startUp_keeps_tables hf, fun b => ?bins⟩, fun hf => ?formatted,
    order?_of_reset hou, queue_of_reset hou, congrArg (·.claims) hou, congrArg (·.quiet) hou, congrArg (·.cursor) hou,
    congrArg (·.sweep) hou, congrArg (·.auditCount) hou, ?dropList,
    fun a => ⟨slot_of_reset halc a, shuttle_of_reset halc a⟩, congrArg (·.last2) halc, congrArg (·.last3) halc,
    congrArg (·.last4) halc, congrArg (·.line) halc, congrArg (·.pointer) hlc, congrArg (·.lsrc) hlc,
    congrArg (·.ldst) hlc, congrArg (·.lgoPulses) hlc, congrArg (·.exchange) halc, congrArg (·.crossing) hlc,
    fun a => ⟨outPlace_startUp a, inPlace_startUp a⟩, fun k => ⟨presentationQueue_startUp k, reserved_startUp k⟩,
    stationOut_startUp, position_startUp, congrArg (·.fault) au_startUp, zone_startUp, congrArg (·.lstop) hlc,
    stationState_startUp, fun c => ?latches⟩
  case bins =>
    rw [binRec?_startUp hf]
    exact congrArg (Option.map · _) (funext afterReset_lostByPowerOn)
  case formatted =>
    have htab := startUp_formats_tables hf
    refine ⟨congrArg (·.bins) htab, congrArg (·.items) htab, congrArg (·.patrons) htab, congrArg (·.day) htab,
      segment_formatted htab, congrArg (·.categories) htab, fun n => ?_, fun z => ?_⟩
    · rw [htab]; exact getElem_replicate_fin ..
    · rw [htab]; exact getElem_replicate_fin ..
  case dropList => rw [dropList_startUp, tab_startUp, droppedTags_eq]
  case latches =>
    rw [au_startUp]
    exact getLsbD_startLatches c _

end Sys2Proof.Machine
end

section
/-! RESET CONTROLLER: the blocks and the settling of the zones (R168, R160). -/
namespace Sys2Proof.Machine

variable {s : State}

/-! ## The blocks -/

theorem binRec?_softResetBlocks (b : BinNo) :
    s.softResetBlocks.binRec? b = (s.binRec? b).map (BinRec.afterReset Place.lostBySoftReset) :=
  tableFind_map b.val _ s.tab.bins

theorem position_softResetBlocks (p : Position) :
    s.softResetBlocks.position p = (s.position p).afterSoftReset s.returnOpen := by
  cases p <;> rfl

theorem exec_resetController (hw : s.windowFree = true) : exec .resetController s =
    .next ((State.softReset (s.storeRequest 0x70)).endRequest .ok
      { a0 := word s.softResetLosses, a1 := word s.takenEntries }) :=
  next_answered (e := resetController) hw rfl

/-! ## Latches stay set -/

/-- The latch of a cause is set (R171). -/
def State.latchSet (s : State) (c : Cause) : Prop := s.au.latches.getLsbD (c.number - 1) = true

/-- A walk whose every step leaves the attention block leaves it. -/
theorem au_foldl {ι : Type} (f : State → ι → State) (h : ∀ s i, (f s i).au = s.au) :
    ∀ (l : List ι) (s : State), (l.foldl f s).au = s.au
  | [], _ => rfl
  | i :: l, s => by rw [List.foldl_cons, au_foldl f h l, h]

/-- A walk whose every step keeps a law keeps it. -/
theorem foldl_keeps {ι : Type} {P : State → Prop} {f : State → ι → State} (h : ∀ s i, P s → P (f s i)) :
    ∀ (l : List ι) {s : State}, P s → P (l.foldl f s)
  | [], _, hs => hs
  | i :: l, _, hs => foldl_keeps h l (h _ i hs)

variable (s) in
theorem au_dispatch (a : Aisle) : (s.dispatch a).au = s.au := by
  unfold State.dispatch State.startOrder
  repeat' split
  all_goals rfl

variable (s) in
theorem au_resumeHolding (a : Aisle) : (s.resumeHolding a).au = s.au := by
  unfold State.resumeHolding
  repeat' split
  all_goals rfl

variable (s) in
theorem au_resumeTakeOn (a : Aisle) : (s.resumeTakeOn a).au = s.au := by
  unfold State.resumeTakeOn
  repeat' split
  all_goals rfl

variable (s) in
theorem au_workAisles : s.workAisles.au = s.au :=
  au_foldl _ (fun _ _ => (au_dispatch _ _).trans ((au_resumeTakeOn _ _).trans (au_resumeHolding _ _))) _ _

variable (s) in
theorem au_parkIdle : s.parkIdle.au = s.au :=
  au_foldl _ (fun s a => by unfold State.quietPark; split <;> rfl) _ _

variable (s) in
theorem au_lookForCrossing : s.lookForCrossing.au = s.au := by
  unfold State.lookForCrossing
  repeat' split
  · unfold State.grantCrossing State.emptySource State.setStage
    dsimp only
    repeat' split
    all_goals rfl
  all_goals rfl

variable (s) in
theorem au_placeOrder (o : OrderNo) (r : Order) : (s.placeOrder o r).au = s.au := by
  simp only [State.placeOrder]
  split <;> rfl

variable (s) in
theorem au_becomeActive : s.becomeActive.au = s.au :=
  au_foldl _ (fun s a => by split <;> rfl) _ _

variable {c : Cause}

theorem latchSet_of_au {t : State} (h : t.au = s.au) (hs : s.latchSet c) : t.latchSet c := by
  rwa [State.latchSet, h]

theorem latchSet_latch (d : Cause) (hs : s.latchSet c) : (s.latch d).latchSet c := by
  simp only [State.latchSet, State.latch, BitVec.getLsbD_or, Bool.or_eq_true] at hs ⊢
  exact Or.inl hs

theorem latchSet_latch_self (c : Cause) : (s.latch c).latchSet c := by
  cases c <;> simp [State.latchSet, State.latch, Cause.number]

section
variable (hs : s.latchSet c)
include hs

theorem latchSet_wakeByNeed : s.wakeByNeed.latchSet c := by
  unfold State.wakeByNeed
  split
  · exact latchSet_latch _ (latchSet_of_au (au_becomeActive s) hs)
  · exact hs

theorem latchSet_takeFetchClaim (p : Position) : (s.takeFetchClaim p).latchSet c := by
  have woken := latchSet_wakeByNeed hs
  simp only [State.takeFetchClaim]
  repeat' split
  · exact latchSet_of_au (au_placeOrder _ _ _) woken
  · exact latchSet_latch (s := (s.wakeByNeed.setPosition p .wanting).withdrawClaims _) _ woken
  · exact woken

theorem latchSet_tryFetch (p : Position) : (s.tryFetch p).latchSet c := by
  unfold State.tryFetch
  repeat' split
  any_goals exact hs
  all_goals exact latchSet_takeFetchClaim hs p

theorem latchSet_tryDismissal (p : Position) : (s.tryDismissal p).latchSet c := by
  unfold State.tryDismissal
  repeat' split
  any_goals exact hs
  exact latchSet_of_au (au_placeOrder _ _ _) (latchSet_wakeByNeed hs)

theorem latchSet_tendPositions : s.tendPositions.latchSet c :=
  latchSet_tryFetch (latchSet_tryFetch (latchSet_tryDismissal (latchSet_tryDismissal hs _) _) _) _

theorem latchSet_settleWork : s.settleWork.latchSet c :=
  latchSet_of_au (au_workAisles _) (latchSet_tendPositions (latchSet_of_au (au_lookForCrossing _)
    (latchSet_of_au (au_workAisles _) (latchSet_tendPositions hs))))

theorem latchSet_tryQuiet : s.tryQuiet.latchSet c := by
  unfold State.tryQuiet
  split
  · exact latchSet_latch (s := { s with ou.quiet := .quiet }) _ hs
  · exact hs

theorem latchSet_tryAuditEnd : s.tryAuditEnd.latchSet c := by
  unfold State.tryAuditEnd
  split
  · exact latchSet_latch (s := { s with ou.sweep := false, ou.cursor := none }) _ hs
  · exact hs

end

/-- Once the zones are settled, the rest of the settling keeps the latches. -/
theorem latchSet_settle (hs : s.settleZones.latchSet c) : s.settle.latchSet c :=
  latchSet_tryAuditEnd (latchSet_tryQuiet (latchSet_of_au (au_parkIdle _) (latchSet_settleWork hs)))

theorem zoneState_of_still {t : State} (h : t.still = s.still) (z : ZoneNo) : t.zoneState z = s.zoneState z :=
  congrArg (fun u : Still => (u.zones[z]).state) h

/-- The zones' states are settled first; the rest of the settling leaves them. -/
theorem zoneState_settle (z : ZoneNo) : s.settle.zoneState z = s.settleZones.zoneState z :=
  zoneState_of_still (by simp [State.settle]) z

/-! ## The zones of a wing without orders, exchanges and crossing -/

/-- The link, the Order Unit and the crossing as a soft reset leaves them: nothing holds a zone in ALARM or in RECOVERY. -/
def State.Idled (s : State) : Prop := s.alc = resetLinkUnit ∧ s.ou = resetOrderUnit ∧ s.lc.crossing = none

section
variable (hs : s.Idled)
include hs

theorem link_of_idled : s.alc = resetLinkUnit := hs.1

theorem orderUnit_of_idled : s.ou = resetOrderUnit := hs.2.1

theorem crossing_of_idled : s.lc.crossing = none := hs.2.2

theorem shuttle_of_idled (a : Aisle) : s.shuttle a = resetShuttle := shuttle_of_reset (link_of_idled hs) a

theorem slot_of_idled (a : Aisle) : s.slot a = none := slot_of_reset (link_of_idled hs) a

theorem exchange_of_idled : s.alc.exchange = none := congrArg (·.exchange) (link_of_idled hs)

theorem changeShuttle_of_idled (a : Aisle) {f : Shuttle → Shuttle} (hf : f resetShuttle = resetShuttle) :
    s.changeShuttle a f = s := by
  have h : s.alc.shuttles.set a (f (s.shuttle a)) = s.alc.shuttles := by
    rw [shuttle_of_idled hs, hf, ← shuttle_of_idled hs a]
    exact Vector.set_getElem_self ..
  rw [State.changeShuttle, State.putShuttle, h]

theorem silenceShuttle_of_idled (a : Aisle) : s.silenceShuttle a = s := by
  have hw : s.withdrawForAlarm a = s := by simp [State.withdrawForAlarm, slot_of_idled hs]
  have hx : s.limitExchange a .discard = s := by
    rw [State.limitExchange, exchange_of_idled hs, Option.map_none, ← exchange_of_idled hs]
  rw [State.silenceShuttle, hw, State.clearCommand, changeShuttle_of_idled hs a rfl, changeShuttle_of_idled hs a rfl, hx]

theorem currentOrder?_of_idled (a : Aisle) : s.currentOrder? a = none := by
  simp [State.currentOrder?, shuttle_of_idled hs, resetShuttle]

theorem sealShuttle_of_idled (a : Aisle) : s.sealShuttle a = s := by
  simp [State.sealShuttle, silenceShuttle_of_idled hs, currentOrder?_of_idled hs]

theorem sealable_of_idled (z : ZoneNo) : s.sealable z = true := by
  simp [State.sealable, State.shuttlesAtRest, State.reachesPort, shuttle_of_idled hs, resetShuttle, ShuttleState.atRest]

theorem aisleRecovered_of_idled (a : Aisle) : s.aisleRecovered a = true := by
  have hrevival : s.revivalOut a = false := by
    simp [State.revivalOut, shuttle_of_idled hs, resetShuttle, slot_of_idled hs, exchange_of_idled hs]
  have hrestore : s.restoreOut a = false := by
    simp [State.restoreOut, order?_of_reset (orderUnit_of_idled hs)]
  have hclaims : s.claims a.val = false := by rw [State.claims, orderUnit_of_idled hs]; rfl
  simp [State.aisleRecovered, shuttle_of_idled hs, resetShuttle, hrevival, hrestore, hclaims]

theorem recovered_of_idled (z : ZoneNo) : s.recovered z = true := by
  simp [State.recovered, crossing_of_idled hs, aisleRecovered_of_idled hs]

theorem strand_of_idled : s.strand = s := by rw [State.strand, crossing_of_idled hs]

theorem sealShuttles_of_idled : ∀ l : List Aisle, l.foldl (fun s a => s.sealShuttle a) s = s
  | [] => rfl
  | a :: l => by rw [List.foldl_cons, sealShuttle_of_idled hs, sealShuttles_of_idled l]

/-- Sealing a zone writes its state and the latch, and nothing else. -/
theorem trySeal_of_idled (z : ZoneNo) :
    s.trySeal z = if s.zoneAlarm z then (s.setZoneState z .sealed).latch .zoneSealed else s := by
  have hsealed : ((s.setZoneState z .sealed).latch .zoneSealed).Idled := hs
  simp only [State.trySeal, sealable_of_idled hs, Bool.and_true, State.sealZone, strand_of_idled hsealed,
    sealShuttles_of_idled hsealed, ite_self]

theorem idled_trySeal (z : ZoneNo) : (s.trySeal z).Idled := by
  rw [trySeal_of_idled hs]
  split <;> exact hs

theorem idled_tryRecover (z : ZoneNo) : (s.tryRecover z).Idled := by
  simp only [State.tryRecover]
  repeat' split
  all_goals exact hs

end

/-! ## What the settling makes of each zone -/

/-- A zone's state once it has sealed if it can. -/
def ZoneState.sealedIfAlarm : ZoneState → ZoneState
  | .alarm _ => .sealed
  | st => st

/-- A zone's state once it has recovered if it can. -/
def ZoneState.normalIfRecovery : ZoneState → ZoneState
  | .recovery => .normal
  | st => st

theorem zoneState_setZoneState (z w : ZoneNo) (st : ZoneState) :
    (s.setZoneState z st).zoneState w = if z = w then st else s.zoneState w := by
  rw [State.zoneState, zone_setZoneState]
  split <;> rfl

theorem zoneAlarm_iff {z : ZoneNo} : s.zoneAlarm z = true ↔ ∃ n, s.zoneState z = .alarm n := by
  rw [State.zoneAlarm]
  cases s.zoneState z <;> simp

theorem zoneState_trySeal (hs : s.Idled) (z w : ZoneNo) :
    (s.trySeal z).zoneState w = if z = w then (s.zoneState w).sealedIfAlarm else s.zoneState w := by
  rw [trySeal_of_idled hs]
  split
  · rename_i ha
    obtain ⟨n, hn⟩ := zoneAlarm_iff.1 ha
    refine (zoneState_setZoneState z w .sealed).trans (if_ctx_congr Iff.rfl (fun e => ?_) fun _ => rfl)
    rw [← e, hn]
    rfl
  · rename_i ha
    split
    · rename_i e
      subst e
      cases hst : s.zoneState z with
      | alarm n => exact absurd (zoneAlarm_iff.2 ⟨n, hst⟩) ha
      | _ => rfl
    · rfl

theorem zoneState_tryRecover (hs : s.Idled) (z w : ZoneNo) :
    (s.tryRecover z).zoneState w = if z = w then (s.zoneState w).normalIfRecovery else s.zoneState w := by
  have hwritten : ∀ u : State, u.fiu = (s.setZoneState z .normal).fiu → s.zoneState z = .recovery →
      u.zoneState w = if z = w then (s.zoneState w).normalIfRecovery else s.zoneState w := by
    intro u hu hz
    rw [State.zoneState, State.zone, hu]
    refine (zoneState_setZoneState z w .normal).trans (if_ctx_congr Iff.rfl (fun e => ?_) fun _ => rfl)
    rw [← e, hz]
    rfl
  simp only [State.tryRecover, recovered_of_idled hs, Bool.and_true, decide_eq_true_eq]
  split
  · split
    · exact hwritten _ rfl ‹_›
    · exact hwritten _ rfl ‹_›
  · rename_i hz
    split
    · rename_i e
      subst e
      cases hst : s.zoneState z with
      | recovery => exact absurd hst hz
      | _ => rfl
    · rfl

/-- A walk that changes the state of each zone of a list in one way. -/
theorem zoneState_foldl {f : State → ZoneNo → State} {g : ZoneState → ZoneState} (hg : ∀ st, g (g st) = g st)
    (hidle : ∀ s z, s.Idled → (f s z).Idled) {w : ZoneNo}
    (hf : ∀ s z, s.Idled → (f s z).zoneState w = if z = w then g (s.zoneState w) else s.zoneState w) :
    ∀ (l : List ZoneNo) {s : State}, s.Idled →
      (l.foldl f s).zoneState w = if w ∈ l then g (s.zoneState w) else s.zoneState w
  | [], s, _ => by simp
  | z :: l, s, hs => by
    rw [List.foldl_cons, zoneState_foldl hg hidle hf l (hidle s z hs), hf s z hs]
    by_cases hz : z = w
    · simp [hz, hg]
    · simp [hz, Ne.symm hz]

theorem mem_zones (z : ZoneNo) : z ∈ zones := by revert z; decide

theorem idled_trySeals (hs : s.Idled) : (zones.foldl (fun s z => s.trySeal z) s).Idled :=
  foldl_keeps (P := State.Idled) (fun _ z h => idled_trySeal h z) zones hs

theorem zoneState_trySeals (hs : s.Idled) (z : ZoneNo) :
    (zones.foldl (fun s z => s.trySeal z) s).zoneState z = (s.zoneState z).sealedIfAlarm := by
  rw [zoneState_foldl (fun st => by cases st <;> rfl) (fun _ z h => idled_trySeal h z)
    (fun _ w h => zoneState_trySeal h w z) _ hs, if_pos (mem_zones z)]

theorem zoneState_settleZones (hs : s.Idled) (z : ZoneNo) :
    s.settleZones.zoneState z = (s.zoneState z).sealedIfAlarm.normalIfRecovery := by
  rw [State.settleZones, zoneState_foldl (fun st => by cases st <;> rfl) (fun _ z h => idled_tryRecover h z)
    (fun _ w h => zoneState_tryRecover h w z) _ (idled_trySeals hs), if_pos (mem_zones z), zoneState_trySeals hs]

/-! ## What the settling latches -/

theorem latchSet_tryRecover {c : Cause} (z : ZoneNo) (hs : s.latchSet c) : (s.tryRecover z).latchSet c := by
  have h := latchSet_latch .zoneRecovered (s := s.setZoneState z .normal) hs
  simp only [State.tryRecover]
  repeat' split
  · exact h
  · exact h
  · exact hs

theorem latchSet_trySeal {c : Cause} (hidle : s.Idled) (z : ZoneNo) (hs : s.latchSet c) : (s.trySeal z).latchSet c := by
  rw [trySeal_of_idled hidle]
  split
  · exact latchSet_latch .zoneSealed (s := s.setZoneState z .sealed) hs
  · exact hs

/-- A zone is in ALARM still, or ZONE_SEALED is latched. -/
def State.Sealing (z : ZoneNo) (s : State) : Prop := s.Idled ∧ (s.zoneAlarm z = true ∨ s.latchSet .zoneSealed)

/-- A zone is in RECOVERY still, or ZONE_RECOVERED is latched. -/
def State.Recovering (z : ZoneNo) (s : State) : Prop := s.Idled ∧ (s.zoneState z = .recovery ∨ s.latchSet .zoneRecovered)

theorem sealing_trySeal {z : ZoneNo} (w : ZoneNo) (hs : s.Sealing z) : (s.trySeal w).Sealing z := by
  obtain ⟨hidle, hpart⟩ := hs
  refine ⟨idled_trySeal hidle w, ?_⟩
  rw [trySeal_of_idled hidle]
  split
  · exact Or.inr (latchSet_latch_self .zoneSealed)
  · exact hpart

theorem recovering_trySeal {z : ZoneNo} (w : ZoneNo) (hs : s.Recovering z) : (s.trySeal w).Recovering z := by
  obtain ⟨hidle, hpart⟩ := hs
  refine ⟨idled_trySeal hidle w, hpart.imp (fun h => ?_) (latchSet_trySeal hidle w)⟩
  rw [zoneState_trySeal hidle, h]
  exact ite_self _

theorem recovering_tryRecover {z : ZoneNo} (w : ZoneNo) (hs : s.Recovering z) : (s.tryRecover w).Recovering z := by
  obtain ⟨hidle, hpart⟩ := hs
  refine ⟨idled_tryRecover hidle w, ?_⟩
  have hlatched := latchSet_latch_self (s := s.setZoneState w .normal) .zoneRecovered
  simp only [State.tryRecover]
  repeat' split
  · exact Or.inr hlatched
  · exact Or.inr hlatched
  · exact hpart

theorem latchSet_sealed_settleZones {z : ZoneNo} (hs : s.Idled) (ha : s.zoneAlarm z = true) :
    s.settleZones.latchSet .zoneSealed := by
  obtain ⟨-, h⟩ := foldl_keeps (P := State.Sealing z) (fun _ w h => sealing_trySeal w h) zones ⟨hs, Or.inl ha⟩
  have hdone : ¬ (zones.foldl (fun s z => s.trySeal z) s).zoneAlarm z = true := by
    rw [zoneAlarm_iff, zoneState_trySeals hs]
    cases s.zoneState z <;> simp [ZoneState.sealedIfAlarm]
  exact foldl_keeps (P := fun t => t.latchSet .zoneSealed) (fun _ w h => latchSet_tryRecover w h) zones (h.resolve_left hdone)

theorem latchSet_recovered_settleZones {z : ZoneNo} (hs : s.Idled) (hr : s.zoneState z = .recovery) :
    s.settleZones.latchSet .zoneRecovered := by
  have hseal := foldl_keeps (P := State.Recovering z) (fun _ w h => recovering_trySeal w h) zones ⟨hs, Or.inl hr⟩
  obtain ⟨-, h⟩ := foldl_keeps (P := State.Recovering z) (fun _ w h => recovering_tryRecover w h) zones hseal
  have hdone : ¬ s.settleZones.zoneState z = .recovery := by
    rw [zoneState_settleZones hs, hr]
    simp [ZoneState.sealedIfAlarm, ZoneState.normalIfRecovery]
  exact h.resolve_left hdone

/-! ## RESET CONTROLLER -/

theorem idled_softResetBlocks : s.softResetBlocks.Idled := ⟨rfl, rfl, rfl⟩

theorem zoneState_softReset (z : ZoneNo) :
    s.softReset.zoneState z = (s.zoneState z).sealedIfAlarm.normalIfRecovery :=
  (zoneState_settle z).trans (zoneState_settleZones idled_softResetBlocks z)

theorem pendingCause_zoneSealed (hs : s.latchSet .zoneSealed) : s.pendingCause .zoneSealed = true := hs

theorem pendingCause_zoneRecovered (hs : s.latchSet .zoneRecovered) : s.pendingCause .zoneRecovered = true := hs

theorem softReset_latches_sealed {z : ZoneNo} (ha : s.zoneAlarm z = true) : s.softReset.latchSet .zoneSealed :=
  latchSet_settle (latchSet_sealed_settleZones (s := s.softResetBlocks) idled_softResetBlocks ha)

theorem softReset_latches_recovered {z : ZoneNo} (hr : s.zoneState z = .recovery) : s.softReset.latchSet .zoneRecovered :=
  latchSet_settle (latchSet_recovered_settleZones (s := s.softResetBlocks) idled_softResetBlocks hr)

/-- Settles O54: the blocks' values by definition; the settling then finds nothing that holds a zone in ALARM or RECOVERY. -/
theorem softResetKeepsTheRecords : Obligations.SoftResetKeepsTheRecords := by
  refine fun s => ⟨exec_resetController, rfl, ⟨fun b => ?bins, rfl, order?_of_reset rfl, queue_of_reset rfl, rfl, rfl, rfl, rfl,
    rfl, droppedTags_eq _, fun a => ⟨slot_of_reset rfl a, shuttle_of_reset rfl a⟩, rfl, rfl, rfl, rfl, rfl, rfl, rfl, rfl,
    rfl, rfl, rfl, rfl, rfl, fun n => ⟨rfl, rfl⟩, fun k => ⟨rfl, getElem_replicate_fin ..⟩, fun p => ?positions, rfl, rfl,
    rfl, rfl, rfl, rfl, rfl, rfl, rfl⟩, fun z => ?zones,
    fun z ha => pendingCause_zoneSealed (softReset_latches_sealed ha),
    fun z hr => pendingCause_zoneRecovered (softReset_latches_recovered hr)⟩
  case bins =>
    rw [binRec?_softResetBlocks]
    exact congrArg (Option.map · _) (funext afterReset_lostBySoftReset)
  case positions =>
    rw [position_softResetBlocks]
    refine ⟨?_, fun b => ?_, rfl, rfl⟩
    · rintro ⟨e, he⟩
      rw [he]
      rfl
    · rintro (hp | hp) <;> rw [hp] <;> rfl
  case zones =>
    rw [zoneState_softReset]
    cases s.zoneState z <;> rfl

end Sys2Proof.Machine
end

section
/-! The two counts of each bin, and the items that they count (R24). -/
namespace Sys2Proof.Machine

variable {s t : State}

/-! ## The law as one equation -/

/-- The two counts that a bin record keeps of items (R24). -/
inductive BinCount where
  | items
  | pickedOut

/-- A count of a bin record. -/
def BinRec.count (r : BinRec) : BinCount → Nat
  | .items => r.itemCount
  | .pickedOut => r.pickedOut

/-- Whether an item in a state is one that a bin's count counts (R24). -/
def BinCount.names : BinCount → BinNo → ItemState → Bool
  | .items => ItemState.inBin
  | .pickedOut => ItemState.pickedFrom

/-- What an item in a state adds to a bin's count. -/
def BinCount.share (k : BinCount) (b : BinNo) (st : ItemState) : Nat := if k.names b st then 1 else 0

/-- A count as the bin table has it, 0 for a bin number without a record. -/
def State.countOf (s : State) (k : BinCount) (b : BinNo) : Nat := (s.binRec? b).elim 0 (·.count k)

/-- A count as the item table has it. -/
def State.tally (s : State) (k : BinCount) (b : BinNo) : Nat := countItems (k.names b) s.tab.items

/-- The law for both counts of every bin. -/
def State.CountsAgree (s : State) : Prop := ∀ k b, s.countOf k b = s.tally k b

theorem countLaw_iff : s.CountLaw ↔ s.CountsAgree := by
  have atBin : ∀ b : BinNo, (match s.binRec? b with
      | some r => r.itemCount = countItems (ItemState.inBin b) s.tab.items
          ∧ r.pickedOut = countItems (ItemState.pickedFrom b) s.tab.items
      | none => countItems (ItemState.inBin b) s.tab.items = 0 ∧ countItems (ItemState.pickedFrom b) s.tab.items = 0) ↔
      s.countOf .items b = s.tally .items b ∧ s.countOf .pickedOut b = s.tally .pickedOut b := by
    intro b
    unfold State.countOf State.tally
    cases s.binRec? b with
    | some r => exact Iff.rfl
    | none => exact and_congr eq_comm eq_comm
  constructor
  · intro h k b
    obtain ⟨hin, hout⟩ := (atBin b).1 (h b)
    cases k
    · exact hin
    · exact hout
  · exact fun h b => (atBin b).2 ⟨h .items b, h .pickedOut b⟩

/-- The law is kept where a bin's count and its items change by the same. -/
theorem countsAgree_of_balance (hs : s.CountsAgree) (h : ∀ k b, t.countOf k b + s.tally k b = s.countOf k b + t.tally k b) :
    t.CountsAgree := by
  intro k b
  have hlaw := hs k b
  have hbal := h k b
  omega

/-! ## What an item adds to a count -/

@[simp] theorem share_held (k : BinCount) (b c : BinNo) : k.share b (.held c) = k.share b (.shelved c) := by cases k <;> rfl

@[simp] theorem share_onLoan (k : BinCount) (b : BinNo) (n : PatronNo) (due j : Nat) : k.share b (.onLoan n due j) = 0 := by
  cases k <;> rfl

@[simp] theorem share_dropped (k : BinCount) (b : BinNo) : k.share b .dropped = 0 := by cases k <;> rfl

@[simp] theorem share_lost (k : BinCount) (b : BinNo) : k.share b .lost = 0 := by cases k <;> rfl

theorem share_shelved_ne {b c : BinNo} (h : c ≠ b) (k : BinCount) : k.share c (.shelved b) = 0 := by
  cases k <;> simp [BinCount.share, BinCount.names, ItemState.inBin, ItemState.pickedFrom, h.symm]

theorem share_picked_ne {b c : BinNo} (h : c ≠ b) (k : BinCount) (p : PickNo) : k.share c (.picked p b) = 0 := by
  cases k <;> simp [BinCount.share, BinCount.names, ItemState.inBin, ItemState.pickedFrom, h.symm]

@[simp] theorem share_shelved_self (b : BinNo) : BinCount.share .items b (.shelved b) = 1 := by
  simp [BinCount.share, BinCount.names, ItemState.inBin]

@[simp] theorem share_pickedOut_shelved (b c : BinNo) : BinCount.share .pickedOut b (.shelved c) = 0 := rfl

@[simp] theorem share_picked_self (p : PickNo) (b : BinNo) : BinCount.share .pickedOut b (.picked p b) = 1 := by
  simp [BinCount.share, BinCount.names, ItemState.pickedFrom]

@[simp] theorem share_items_picked (p : PickNo) (b c : BinNo) : BinCount.share .items b (.picked p c) = 0 := rfl

theorem share_of_liesIn {st : ItemState} {b : BinNo} (h : st.liesIn b = true) (k : BinCount) (c : BinNo) :
    k.share c st = k.share c (.shelved b) := by
  cases st with
  | shelved d => rw [eq_of_beq h]
  | held d => rw [eq_of_beq h, share_held]
  | _ => cases h

@[simp] theorem share_stateInto (k : BinCount) (b c : BinNo) (r : BinRec) :
    k.share c (stateInto b r) = k.share c (.shelved b) := by
  unfold stateInto
  split
  · exact share_held k c b
  · rfl

/-- A change of a hold list leaves an item in its bin (R122). -/
@[simp] theorem share_stateByHolds (k : BinCount) (b : BinNo) (holds : List PatronNo) (st : ItemState) :
    k.share b (s.stateByHolds holds st) = k.share b st := by
  unfold State.stateByHolds
  repeat' split
  all_goals simp only [share_held]

@[simp] theorem share_heldState (k : BinCount) (b : BinNo) (holds : List PatronNo) (st : ItemState) :
    k.share b (s.heldState holds st) = k.share b st := by
  unfold State.heldState
  split
  · simp only [share_onLoan]
  · exact share_stateByHolds k b holds st

/-! ## The items counted -/

section
variable {p : ItemState → Bool} {n : Nat} {i j : Item}

theorem countItems_erase : ∀ {l : Table Item}, tableFind n l = some i →
    countItems p (tableErase n l) + (if p i.state then 1 else 0) = countItems p l
  | [], h => by cases h
  | (m, x) :: l, h => by
    unfold tableFind at h
    unfold tableErase
    split at h
    · cases h
      rw [if_pos ‹m = n›, countItems, Nat.add_comm]
    · have ih := countItems_erase h
      rw [if_neg ‹¬ m = n›, countItems, countItems]
      omega

theorem countItems_insert_new : ∀ {l : Table Item}, tableFind n l = none →
    countItems p (tableInsert n i l) = countItems p l + (if p i.state then 1 else 0)
  | [], _ => by simp [tableInsert, countItems]
  | (m, x) :: l, h => by
    unfold tableFind at h
    split at h
    · cases h
    · have ih := countItems_insert_new h
      rw [tableInsert, if_neg (Ne.symm ‹¬ m = n›)]
      split <;> simp only [countItems] <;> omega

theorem countItems_insert_old : ∀ {l : Table Item}, tableSorted l = true → tableFind n l = some j →
    countItems p (tableInsert n i l) + (if p j.state then 1 else 0) = countItems p l + (if p i.state then 1 else 0)
  | [], _, h => by cases h
  | (m, x) :: l, hl, h => by
    unfold tableFind at h
    split at h
    · cases h
      rename_i hm
      rw [tableInsert, if_neg (by omega), if_pos hm.symm, countItems, countItems]
      omega
    · rename_i hm
      have hlater : ¬ n < m := fun hlt => by
        rw [tableFind_of_above (Nat.le_of_lt hlt) hl] at h
        cases h
      have ih := countItems_insert_old (tableSorted_of_above hl) h
      rw [tableInsert, if_neg hlater, if_neg (Ne.symm hm), countItems, countItems]
      omega

end

theorem tally_of_items (h : t.tab.items = s.tab.items) (k : BinCount) (b : BinNo) : t.tally k b = s.tally k b := by
  rw [State.tally, State.tally, h]

section
variable {x : Tag} {i j : Item}

theorem tally_eraseItem (hf : s.item? x = some j) (k : BinCount) (b : BinNo) :
    (s.eraseItem x).tally k b + k.share b j.state = s.tally k b := countItems_erase hf

theorem tally_putItem_new (hf : s.item? x = none) (k : BinCount) (b : BinNo) :
    (s.putItem x i).tally k b = s.tally k b + k.share b i.state := countItems_insert_new hf

theorem tally_putItem_old (hm : s.memoryWhole = true) (hf : s.item? x = some j) (k : BinCount) (b : BinNo) :
    (s.putItem x i).tally k b + k.share b j.state = s.tally k b + k.share b i.state := by
  obtain ⟨-, ⟨hitems, -⟩, -⟩ := memoryWhole_iff.1 hm
  exact countItems_insert_old hitems hf

/-- A bin's count is at least what any one item adds to it. -/
theorem share_le_countOf (hs : s.CountsAgree) (hf : s.item? x = some j) (k : BinCount) (b : BinNo) :
    k.share b j.state ≤ s.countOf k b := by
  rw [hs k b, ← tally_eraseItem hf]
  exact Nat.le_add_left _ _

end

/-! ## The counts of the bin table -/

/-- Places and holders are no part of the counts. -/
theorem countOf_of_facts (h : tableMap BinRec.facts t.tab.bins = tableMap BinRec.facts s.tab.bins) (k : BinCount) (b : BinNo) :
    t.countOf k b = s.countOf k b := by
  have hfacts : ∀ u : State, u.countOf k b = (tableFind b.val (tableMap BinRec.facts u.tab.bins)).elim 0 (·.count k) := by
    intro u
    rw [tableFind_map, State.countOf, State.binRec?]
    cases tableFind b.val u.tab.bins <;> cases k <;> rfl
  rw [hfacts, hfacts, h]

theorem countOf_of_bins (h : t.tab.bins = s.tab.bins) (k : BinCount) (b : BinNo) : t.countOf k b = s.countOf k b :=
  countOf_of_facts (by rw [h]) k b

theorem countOf_putBin (b c : BinNo) (r : BinRec) (k : BinCount) :
    (s.putBin b r).countOf k c = if c = b then r.count k else s.countOf k c := by
  rw [State.countOf, binRec?_putBin]
  split <;> rfl

section
variable {k : BinCount} {b : BinNo} {st : ItemState} {f : BinRec → BinRec} (hst : ∀ c, c ≠ b → k.share c st = 0)
include hst

/-- A change of an enrolled bin's record that counts an item in. -/
theorem countOf_changeBin_raise (hb : (s.binRec? b).isSome = true) (hf : ∀ r, (f r).count k = r.count k + k.share b st)
    (c : BinNo) : (s.changeBin b f).countOf k c = s.countOf k c + k.share c st := by
  obtain ⟨r, hr⟩ := Option.isSome_iff_exists.1 hb
  rw [State.countOf, State.countOf, binRec?_changeBin]
  split
  · subst c; rw [hr]; exact hf r
  · rw [hst c ‹_›]; rfl

/-- A change of a bin's record that counts an item out. -/
theorem countOf_changeBin_lower (hf : ∀ r, (f r).count k = r.count k - k.share b st) (c : BinNo) :
    (s.changeBin b f).countOf k c = s.countOf k c - k.share c st := by
  rw [State.countOf, State.countOf, binRec?_changeBin]
  split
  · subst c
    cases s.binRec? b with
    | none => exact (Nat.zero_sub _).symm
    | some r => exact hf r
  · rw [hst c ‹_›]; rfl

end

theorem countOf_countOut (b c : BinNo) (k : BinCount) :
    (s.countOut b).countOf k c = s.countOf k c - k.share c (.shelved b) :=
  (countOf_of_bins rfl k c).trans (countOf_changeBin_lower (s := s) (fun _ h => share_shelved_ne h k)
    (fun r => by cases k <;> simp [BinRec.count]) c)

theorem countOf_pickedOutDown (p : PickNo) (b c : BinNo) (k : BinCount) :
    (s.pickedOutDown b).countOf k c = s.countOf k c - k.share c (.picked p b) :=
  countOf_changeBin_lower (fun _ h => share_picked_ne h k p) (fun r => by cases k <;> simp [BinRec.count]) c

theorem countOf_putItem (x : Tag) (i : Item) (k : BinCount) (b : BinNo) : (s.putItem x i).countOf k b = s.countOf k b :=
  countOf_of_bins rfl k b

section
variable {b : BinNo} (hb : (s.binRec? b).isSome = true)
include hb

theorem countOf_countIn (c : BinNo) (k : BinCount) :
    (s.countIn b).countOf k c = s.countOf k c + k.share c (.shelved b) :=
  (countOf_of_bins rfl k c).trans (countOf_changeBin_raise (s := s) (fun _ h => share_shelved_ne h k) hb
    (fun r => by cases k <;> simp [BinRec.count]) c)

/-- An item is written and counted into a bin. -/
theorem countOf_countIn_putItem (x : Tag) (i : Item) (c : BinNo) (k : BinCount) :
    ((s.putItem x i).countIn b).countOf k c = s.countOf k c + k.share c (.shelved b) :=
  (countOf_countIn hb c k).trans (congrArg (· + _) (countOf_putItem x i k c))

theorem countOf_pickedOutUp (p : PickNo) (c : BinNo) (k : BinCount) :
    (s.pickedOutUp b).countOf k c = s.countOf k c + k.share c (.picked p b) :=
  countOf_changeBin_raise (fun _ h => share_picked_ne h k p) hb (fun r => by cases k <;> simp [BinRec.count]) c

end

theorem isSome_binRec?_changeBin (b c : BinNo) (f : BinRec → BinRec) :
    ((s.changeBin b f).binRec? c).isSome = (s.binRec? c).isSome := by
  rw [binRec?_changeBin_map, Option.isSome_map]

/-! ## Changes that leave both sides, and changes of one item -/

theorem countsAgree_congr (hc : ∀ k b, t.countOf k b = s.countOf k b) (hi : t.tab.items = s.tab.items) (hs : s.CountsAgree) :
    t.CountsAgree :=
  countsAgree_of_balance hs fun k b => by rw [hc, tally_of_items hi]

theorem countsAgree_of_records (h : t.records = s.records) (hs : s.CountsAgree) : t.CountsAgree :=
  countsAgree_congr (countOf_of_facts (congrArg Records.binFacts h)) (congrArg Records.items h) hs

theorem countsAgree_settle (hs : s.CountsAgree) : s.settle.CountsAgree := countsAgree_of_records records_settle hs


section
variable {x : Tag} {i j : Item} (hs : s.CountsAgree)
include hs

/-- One record of the item table is written over, and the counts follow it. -/
theorem countsAgree_rewrite (hm : s.memoryWhole = true) (hf : s.item? x = some j)
    (hi : t.tab.items = (s.putItem x i).tab.items)
    (hc : ∀ k b, k.share b j.state ≤ s.countOf k b →
      t.countOf k b + k.share b j.state = s.countOf k b + k.share b i.state) : t.CountsAgree :=
  countsAgree_of_balance hs fun k b => by
    have hcount := hc k b (share_le_countOf hs hf k b)
    have htally := tally_putItem_old (i := i) hm hf k b
    rw [← tally_of_items hi] at htally
    omega

/-- One record of the item table is erased, and the counts follow it. -/
theorem countsAgree_erase (hf : s.item? x = some j) (hi : t.tab.items = (s.eraseItem x).tab.items)
    (hc : ∀ k b, t.countOf k b = s.countOf k b - k.share b j.state) : t.CountsAgree :=
  countsAgree_of_balance hs fun k b => by
    have hle := share_le_countOf hs hf k b
    have hcount := hc k b
    have htally := tally_eraseItem hf k b
    rw [← tally_of_items hi] at htally
    omega

end

end Sys2Proof.Machine
end

section
/-! Every request keeps the counts in agreement with the items (R24). -/
namespace Sys2Proof.Machine

variable {s : State} {o : Operands}

/-! ## The changes that requests make of items -/

/-- Placing writes the item into the bin of its position and counts it in; the rest concerns the position (R135). -/
theorem tab_placeReturned (p : Position) (b : BinNo) (x : Tag) (holds : List PatronNo) :
    ∃ st : ItemState, (∀ (k : BinCount) c, k.share c st = k.share c (.shelved b)) ∧
      (s.placeReturned p b x holds).tab = ((s.putItem x { state := st, holds := holds }).countIn b).tab := by
  cases p
  case intake => refine ⟨.shelved b, fun _ _ => rfl, ?_⟩; simp only [State.placeReturned]; (repeat' split) <;> rfl
  case hold => refine ⟨.held b, fun k c => share_held k c b, ?_⟩; simp only [State.placeReturned]; (repeat' split) <;> rfl

section
variable {x : Tag} {i : Item} (hm : s.memoryWhole = true) (hf : s.item? x = some i) (hs : s.CountsAgree)
include hm hf hs

/-- PICK counts the item out of the bin it lies in, and counts it picked out there (R112). -/
theorem countsAgree_pickItem {b : BinNo} (hb : (s.binRec? b).isSome = true) (hin : i.state.liesIn b = true) (p : PickNo) :
    (s.pickItem x i p b).CountsAgree :=
  countsAgree_rewrite (i := { i with state := .picked p b }) hs hm hf rfl fun k c hle => by
    have hlying : (((s.putItem x { i with state := .picked p b }).countOut b).binRec? b).isSome = true :=
      (isSome_binRec?_changeBin b b _).trans hb
    rw [State.pickItem, countOf_pickedOutUp hlying p, countOf_countOut, countOf_putItem]
    rw [share_of_liesIn hin] at hle ⊢
    dsimp only
    omega

/-- PUT BACK counts the item no longer picked out of its origin, and counts it into the presented bin (R114). -/
theorem countsAgree_putItemBack {p : PickNo} {origin target : BinNo} (r : BinRec)
    (hb : (s.binRec? target).isSome = true) (hst : i.state = .picked p origin) :
    (s.putItemBack x i origin target r).CountsAgree :=
  countsAgree_rewrite (i := { i with state := stateInto target r }) hs hm hf rfl fun k c hle => by
    have hback : (((s.putItem x { i with state := stateInto target r }).pickedOutDown origin).binRec? target).isSome = true :=
      (isSome_binRec?_changeBin origin target _).trans hb
    rw [State.putItemBack, countOf_countIn hback, countOf_pickedOutDown p, countOf_putItem, share_stateInto]
    rw [hst] at hle ⊢
    omega

/-- CHARGE counts the item no longer picked out of its origin (R119). -/
theorem countsAgree_chargeItem {p : PickNo} {origin : BinNo} (n : PatronNo) (due : Nat) (hst : i.state = .picked p origin) :
    (s.chargeItem x i origin n due).CountsAgree := by
  have htables : (s.chargeItem x i origin n due).tab.bins = (s.pickedOutDown origin).tab.bins
      ∧ (s.chargeItem x i origin n due).tab.items
        = (s.putItem x { state := .onLoan n due 0, holds := holdsAfterCharge n i.holds }).tab.items := by
    simp only [State.chargeItem]
    split <;> exact ⟨rfl, rfl⟩
  obtain ⟨hbins, hitems⟩ := htables
  refine countsAgree_rewrite hs hm hf hitems fun k c hle => ?_
  rw [countOf_of_bins hbins, countOf_pickedOutDown p, share_onLoan]
  rw [hst] at hle ⊢
  omega

/-- A new state that the counts count alike, with the bins left as they are. -/
theorem countsAgree_sameShare {t : State} {j : Item} (hbins : t.tab.bins = s.tab.bins)
    (hitems : t.tab.items = (s.putItem x j).tab.items) (hst : ∀ (k : BinCount) b, k.share b j.state = k.share b i.state) :
    t.CountsAgree :=
  countsAgree_rewrite hs hm hf hitems fun k c _ => by rw [countOf_of_bins hbins, hst]

/-- The item is placed in the bin of its position once its former state has ended (R135, R137). -/
theorem countsAgree_placeReturned {t : State} (p : Position) (b : BinNo) (holds : List PatronNo)
    (hb : (t.binRec? b).isSome = true) (hitems : t.tab.items = s.tab.items)
    (hformer : ∀ k c, t.countOf k c = s.countOf k c - k.share c i.state) : (t.placeReturned p b x holds).CountsAgree := by
  obtain ⟨st, hst, htab⟩ := tab_placeReturned (s := t) p b x holds
  have hwritten : (t.placeReturned p b x holds).tab.items = (s.putItem x { state := st, holds := holds }).tab.items := by
    rw [htab]
    exact congrArg (tableInsert x _) hitems
  refine countsAgree_rewrite (i := { state := st, holds := holds }) hs hm hf hwritten fun k c hle => ?_
  rw [countOf_of_bins (congrArg Tables.bins htab), countOf_countIn_putItem hb, hformer, hst]
  omega

/-- The item becomes DROPPED once its former state has ended (R135). -/
theorem countsAgree_dropItem {t : State} (hitems : t.tab.items = s.tab.items)
    (hformer : ∀ k c, t.countOf k c = s.countOf k c - k.share c i.state) : (t.dropItem x i).CountsAgree := by
  have dropped : (t.putItem x { i with state := .dropped }).CountsAgree := by
    refine countsAgree_rewrite (i := { i with state := .dropped }) hs hm hf (congrArg (tableInsert x _) hitems)
      fun k c hle => ?_
    rw [countOf_putItem, hformer, share_dropped]
    omega
  simp only [State.dropItem, State.reportDrop]
  split
  · exact countsAgree_of_records (records_of_still (still_wakeByNeed _)) dropped
  · exact dropped

end

/-! ### Former states -/

/-- The end of the former state of a returned item takes it out of the counts (R135). -/
theorem countOf_endFormer {st : ItemState} (h0 : st.code ≠ 0) (h1 : st.code ≠ 1) (x : Tag) (k : BinCount) (b : BinNo) :
    (s.endFormer x st).countOf k b = s.countOf k b - k.share b st := by
  cases st with
  | shelved c => exact absurd rfl h0
  | held c => exact absurd rfl h1
  | picked p c => exact countOf_pickedOutDown p c b k
  | onLoan n due j => rw [share_onLoan]; exact countOf_of_bins rfl k b
  | dropped => rw [share_dropped]; rfl
  | lost => rw [share_lost]; rfl

theorem items_endFormer (x : Tag) (st : ItemState) : (s.endFormer x st).tab.items = s.tab.items := by cases st <;> rfl

theorem isSome_binRec?_endFormer (x : Tag) (st : ItemState) (b : BinNo) :
    ((s.endFormer x st).binRec? b).isSome = (s.binRec? b).isSome := by
  cases st with
  | picked p c => exact isSome_binRec?_changeBin c b _
  | _ => rfl

/-- What RETIRE ITEM changes besides the record takes the item out of the counts (R27). -/
theorem countOf_retireFrom {st : ItemState} (h : st.retirable = true) (x : Tag) (k : BinCount) (b : BinNo) :
    (s.retireFrom x st).countOf k b = s.countOf k b - k.share b st := by
  cases st with
  | shelved c => exact countOf_countOut c b k
  | dropped => rw [share_dropped]; rfl
  | lost => rw [share_lost]; rfl
  | _ => cases h

theorem items_retireFrom (x : Tag) (st : ItemState) : (s.retireFrom x st).tab.items = s.tab.items := by cases st <;> rfl

theorem tables_dropHolds : ∀ (ns : List PatronNo) (s : State),
    (State.dropHolds ns s).tab.bins = s.tab.bins ∧ (State.dropHolds ns s).tab.items = s.tab.items
  | [], _ => ⟨rfl, rfl⟩
  | n :: rest, s => tables_dropHolds rest (s.holdCountDown n)

theorem tables_recall (x : Tag) (st : ItemState) :
    (s.recall x st).tab.bins = s.tab.bins ∧ (s.recall x st).tab.items = s.tab.items := by
  unfold State.recall
  repeat' split
  all_goals exact ⟨rfl, rfl⟩

/-- DECLARE LOST takes the item out of the counts with its former state (R121). -/
theorem countsAgree_loseItem {t : State} {x : Tag} {i : Item} (hm : s.memoryWhole = true) (hf : s.item? x = some i)
    (hs : s.CountsAgree) (hitems : t.tab.items = s.tab.items)
    (hformer : ∀ k c, t.countOf k c = s.countOf k c - k.share c i.state) : (t.loseItem x i).CountsAgree := by
  obtain ⟨hbins, hkept⟩ := tables_dropHolds i.holds t
  refine countsAgree_rewrite (i := { state := .lost, holds := [] }) hs hm hf
    (congrArg (tableInsert x _) (hkept.trans hitems)) fun k c hle => ?_
  have hlost : (t.loseItem x i).countOf k c = t.countOf k c := countOf_of_bins hbins k c
  rw [hlost, hformer, share_lost]
  omega

/-! ## Bins -/

theorem countsAgree_putBin {b : BinNo} {r : BinRec} (h : ∀ k, r.count k = s.countOf k b) (hs : s.CountsAgree) :
    (s.putBin b r).CountsAgree :=
  countsAgree_congr (s := s) (fun k c => by
    rw [countOf_putBin]
    split
    · subst c; exact h k
    · rfl) rfl hs

theorem countsAgree_eraseBin {b : BinNo} (hm : s.memoryWhole = true) (h : ∀ k, s.countOf k b = 0) (hs : s.CountsAgree) :
    (s.eraseBin b).CountsAgree :=
  countsAgree_congr (s := s) (fun k c => by
    obtain ⟨⟨hbins, -⟩, -⟩ := memoryWhole_iff.1 hm
    rw [State.countOf, binRec?_eraseBin hbins]
    split
    · subst c; exact (h k).symm
    · rfl) rfl hs

theorem countOf_of_record {b : BinNo} {r : BinRec} (h : s.binRec? b = some r) (k : BinCount) : s.countOf k b = r.count k := by
  rw [State.countOf, h]; rfl

theorem countOf_of_no_record {b : BinNo} (h : s.binRec? b = none) (k : BinCount) : s.countOf k b = 0 := by
  rw [State.countOf, h]; rfl

theorem count_afterReset (lost : Place → Bool) (r : BinRec) (k : BinCount) : (r.afterReset lost).count k = r.count k := by
  cases k <;> rfl

/-- A reset writes places and holders, and no count (R22). -/
theorem countOf_resetBins (lost : Place → Bool) (k : BinCount) (b : BinNo) : (s.resetBins lost).countOf k b = s.countOf k b := by
  have h : (s.resetBins lost).binRec? b = (s.binRec? b).map (BinRec.afterReset lost) := tableFind_map _ _ _
  rw [State.countOf, State.countOf, h]
  cases s.binRec? b with
  | none => rfl
  | some r => exact count_afterReset lost r k

theorem countsAgree_resetBins (lost : Place → Bool) (hs : s.CountsAgree) : (s.resetBins lost).CountsAgree :=
  countsAgree_congr (countOf_resetBins lost) rfl hs

/-! ## The presented bins -/

theorem isSome_of_presentedAt? {p : PickNo} {b : BinNo} {r : BinRec} (h : s.presentedAt? p = some (b, r)) :
    (s.binRec? b).isSome = true := by
  unfold State.presentedAt? at h
  split at h
  · cases h
  · split at h
    · cases h
    · rename_i hr; cases h; rw [hr]; rfl

theorem isSome_of_presentedBin? {n : StationNo} {b : BinNo} {r : BinRec} (h : s.presentedBin? n = some (b, r)) :
    (s.binRec? b).isSome = true := by
  unfold State.presentedBin? at h
  split at h
  · cases h
  · exact isSome_of_presentedAt? h

theorem isSome_of_presentedIn? {p : Position} {b : BinNo} (h : s.presentedIn? p = some b) : (s.binRec? b).isSome = true := by
  unfold State.presentedIn? at h
  split at h
  · split at h
    · cases h; assumption
    · cases h
  · cases h

theorem picked_of_originAt? {st : ItemState} {p : PickNo} {b : BinNo} (h : st.originAt? p = some b) : st = .picked p b := by
  cases st with
  | picked q c =>
    simp only [ItemState.originAt?] at h
    split at h
    · cases h; subst q; rfl
    · cases h
  | _ => cases h

theorem binRec?_of_enrolledOperand {b : BinNo} {r : BinRec} (h : s.enrolledOperand o = .ok (b, r)) :
    s.binRec? b = some r := by
  unfold State.enrolledOperand at h
  split at h
  · cases h
  · split at h
    · cases h
    · rename_i hr; cases h; exact hr

/-! ## The requests that write bins and items -/

section
variable (hm : s.memoryWhole = true) (hs : s.CountsAgree)
include hs

theorem countsAgree_enrolBin : (enrolBin o s).All State.CountsAgree := by
  unfold enrolBin
  repeat' split
  any_goals exact Reply.all_refuse
  rename_i b _ hnew
  simp only [enrolBinRefusal, firstFailing_eq_none, List.forall_mem_cons, Option.isNone_iff_eq_none] at hnew
  obtain ⟨-, hnone, -⟩ := hnew
  exact countsAgree_settle (countsAgree_putBin (fun k => by rw [countOf_of_no_record hnone]; cases k <;> rfl) hs)

include hm in
theorem countsAgree_retireBin : (retireBin o s).All State.CountsAgree := by
  unfold retireBin
  repeat' split
  any_goals exact Reply.all_refuse
  rename_i b r hbin hret
  simp only [BinRec.retirable, Bool.and_eq_true, decide_eq_true_eq] at hret
  obtain ⟨⟨⟨-, hitems⟩, hout⟩, -⟩ := hret
  refine countsAgree_eraseBin hm (fun k => ?_) hs
  rw [countOf_of_record (binRec?_of_enrolledOperand hbin)]
  cases k
  · exact hitems
  · exact hout

theorem countsAgree_setPlace : (setPlace o s).All State.CountsAgree := by
  unfold setPlace
  repeat' split
  any_goals exact Reply.all_refuse
  rename_i b r hbin _ _
  exact countsAgree_settle (countsAgree_putBin
    (fun k => by rw [countOf_of_record (binRec?_of_enrolledOperand hbin)]; cases k <;> rfl) hs)

theorem countsAgree_enrolItem : (enrolItem o s).All State.CountsAgree := by
  refine all_atContext fun n => ?_
  repeat' split
  any_goals exact Reply.all_refuse
  have hnew : enrolItemRefusal o.tag n s = none := ‹_›
  rename_i b r hb _ _
  simp only [enrolItemRefusal, firstFailing_eq_none, List.forall_mem_cons, Option.isNone_iff_eq_none] at hnew
  obtain ⟨-, -, -, -, hnone, -⟩ := hnew
  refine countsAgree_of_balance hs fun k c => ?_
  have htally : ((s.putItem o.tag { state := .shelved b, holds := [] }).countIn b).tally k c =
      s.tally k c + k.share c (.shelved b) := tally_putItem_new hnone k c
  rw [countOf_countIn_putItem (isSome_of_presentedBin? hb), htally]
  omega

theorem countsAgree_retireItem : (retireItem o s).All State.CountsAgree := by
  unfold retireItem
  repeat' split
  any_goals exact Reply.all_refuse
  rename_i i hi hret
  obtain ⟨hbins, hitems⟩ := tables_dropHolds i.holds (s.retireFrom o.tag i.state)
  exact countsAgree_settle (countsAgree_erase hs hi
    (congrArg (tableErase o.tag) (hitems.trans (items_retireFrom o.tag i.state)))
    fun k c => (countOf_of_bins hbins k c).trans (countOf_retireFrom hret o.tag k c))

include hm

theorem countsAgree_pick : (pick o s).All State.CountsAgree := by
  refine all_handlingAt fun k => ?_
  repeat' split
  any_goals exact Reply.all_refuse
  rename_i i hi _ b r hb _ hlies
  simp only [pickRefusal, firstFailing_eq_none, List.forall_mem_cons] at hlies
  exact countsAgree_pickItem hm hi hs (isSome_of_presentedAt? hb) hlies.1 k

theorem countsAgree_putBack : (putBack o s).All State.CountsAgree := by
  refine all_handlingAt fun k => ?_
  repeat' split
  any_goals exact Reply.all_refuse
  rename_i i hi _ origin horigin _ target r hb _ _
  exact countsAgree_putItemBack hm hi hs r (isSome_of_presentedAt? hb) (picked_of_originAt? horigin)

theorem countsAgree_charge : (charge o s).All State.CountsAgree := by
  unfold charge chargeUnder
  refine all_handlingAt fun k => ?_
  dsimp only
  repeat' split
  any_goals exact Reply.all_refuse
  rename_i i hi _ origin horigin _ _ _ _ _ _
  exact countsAgree_chargeItem hm hi hs _ _ (picked_of_originAt? horigin)

theorem countsAgree_renew : (renew o s).All State.CountsAgree := by
  refine all_handlingAt fun k => ?_
  unfold renewLoan
  repeat' split
  any_goals exact Reply.all_refuse
  rename_i i hi _ n due renewals hst _ _ _ _ _
  exact countsAgree_sameShare hm hi hs rfl rfl fun k b => by rw [hst, share_onLoan, share_onLoan]

theorem countsAgree_declareLost : (declareLost o s).All State.CountsAgree := by
  refine all_recordAt ?_
  repeat' split
  any_goals exact Reply.all_refuse
  · rename_i i hi _ n due j hst
    refine countsAgree_loseItem (t := s.removeLoan n o.tag) hm hi hs rfl fun k c => ?_
    rw [hst, share_onLoan]
    exact countOf_of_bins rfl k c
  · rename_i i hi _ b hst _
    refine countsAgree_loseItem (t := s.countOut b) hm hi hs rfl fun k c => ?_
    rw [hst]
    exact countOf_countOut b c k

theorem countsAgree_placeHold : (placeHold o s).All State.CountsAgree := by
  refine all_recordAt ?_
  dsimp only
  repeat' split
  any_goals exact Reply.all_refuse
  rename_i i hi _ _ _ _ _
  obtain ⟨hbins, hitems⟩ := tables_recall (s := (s.putItem o.tag
    { state := s.heldState (i.holds ++ [o.secondPatron]) i.state, holds := i.holds ++ [o.secondPatron] }).holdCountUp
      o.secondPatron) o.tag i.state
  exact countsAgree_sameShare hm hi hs hbins hitems fun k b => share_heldState k b _ i.state

theorem countsAgree_cancelHold : (cancelHold o s).All State.CountsAgree := by
  refine all_recordAt ?_
  repeat' split
  any_goals exact Reply.all_refuse
  rename_i i hi _
  exact countsAgree_sameShare hm hi hs rfl rfl fun k b => share_stateByHolds k b _ i.state

theorem countsAgree_returnItem : (returnItem o s).All State.CountsAgree := by
  refine all_atContext fun n => ?_
  dsimp only [returnAccepted]
  split
  · exact Reply.all_refuse
  split
  · exact Reply.all_refuse
  rename_i i hi
  split
  · exact Reply.all_refuse
  rename_i hret
  simp only [returnItemRefusal, firstFailing_eq_none, List.forall_mem_cons, Bool.and_eq_true, decide_eq_true_eq] at hret
  obtain ⟨⟨h0, h1⟩, -⟩ := hret
  split
  · rename_i b hb
    exact countsAgree_settle (countsAgree_placeReturned hm hi hs (routeOf i) b i.holds (isSome_of_presentedIn? hb)
      (items_endFormer o.tag i.state) (countOf_endFormer h0 h1 o.tag))
  · exact countsAgree_settle (countsAgree_dropItem hm hi hs (items_endFormer o.tag i.state) (countOf_endFormer h0 h1 o.tag))

theorem countsAgree_placeDropped : (placeDropped o s).All State.CountsAgree := by
  refine all_atContext fun n => ?_
  repeat' split
  any_goals exact Reply.all_refuse
  rename_i i hi hst _ b hb
  refine countsAgree_settle (countsAgree_placeReturned (t := { s with dropList := s.dropList.erase o.tag }) hm hi hs
    (routeOf i) b i.holds (isSome_of_presentedIn? hb) rfl fun k c => ?_)
  rw [hst, share_dropped]
  rfl

omit hm in
theorem countsAgree_resetController : (resetController o s).All State.CountsAgree :=
  countsAgree_settle (countsAgree_congr (s := s.resetBins Place.lostBySoftReset) (fun k b => countOf_of_bins rfl k b) rfl
    (countsAgree_resetBins Place.lostBySoftReset hs))

end

/-! ## Every request, and every step -/

/-- The codes of the requests that write records other than those of bins and items. -/
def otherRecordCodes : List Nat := [0x09, 0x0A, 0x13, 0x14, 0x15, 0x60]

theorem tables_otherRecords {n : Nat} {e : Evaluation} (he : evaluationOf? n = some e) (hn : n ∈ otherRecordCodes)
    (o : Operands) : (e o s).All fun t => t.tab.bins = s.tab.bins ∧ t.tab.items = s.tab.items := by
  fin_cases hn <;> cases he
  all_goals
    simp only [setDay, setCategory, enrolPatron, retirePatron, setPatronBlock, setDeadline, onPatron]
    repeat' split
  all_goals first | exact Reply.all_refuse | exact ⟨rfl, rfl⟩

/-- Every request keeps the counts in agreement with the items. -/
theorem countsAgree_evaluation {n : Nat} {e : Evaluation} (he : evaluationOf? n = some e) (o : Operands)
    (hm : s.memoryWhole = true) (hs : s.CountsAgree) : (e o s).All State.CountsAgree := by
  refine all_evaluation countsAgree_of_records he hs fun hn => ?_
  by_cases hother : n ∈ otherRecordCodes
  · exact (tables_otherRecords he hother o).mono fun t ⟨hb, hi⟩ => countsAgree_congr (countOf_of_bins hb) hi hs
  · fin_cases hn <;> cases he
    all_goals simp [otherRecordCodes] at hother
    exacts [countsAgree_enrolBin hs, countsAgree_retireBin hm hs, countsAgree_setPlace hs, countsAgree_enrolItem hs,
      countsAgree_retireItem hs, countsAgree_pick hm hs, countsAgree_putBack hm hs, countsAgree_charge hm hs,
      countsAgree_renew hm hs, countsAgree_declareLost hm hs, countsAgree_placeHold hm hs, countsAgree_cancelHold hm hs,
      countsAgree_returnItem hm hs, countsAgree_placeDropped hm hs, countsAgree_resetController hs]

/-- The memory whole and the counts in agreement, which the evaluations need together. -/
theorem countsAgree_stepLaw : StepLaw fun s => s.memoryWhole = true ∧ s.CountsAgree :=
  .ofRecords (fun h => And.imp (memoryWhole_of_records h) (countsAgree_of_records h))
    fun he o ⟨hm, hs⟩ => (memoryWhole_evaluation he o hm).and (countsAgree_evaluation he o hm hs)

/-- Start-up writes no count, or formats the memory, which then holds no bin and no item (R21, R22). -/
theorem countsAgree_startUp (hm : s.memoryWhole = true) (hs : s.CountsAgree) : s.startUp.CountsAgree := by
  have hu : s.updatedTables = s.tab := updatedTables_of_none (pendingUpdate_of_memoryWhole hm)
  cases hmark : s.formatMark with
  | true =>
    have htab : s.startUp.tab = (s.resetBins Place.lostByPowerOn).tab := by
      simp [startUp_eq, State.startTables, State.resetBins, hmark, hu]
    exact countsAgree_congr (countOf_of_bins (congrArg Tables.bins htab)) (congrArg Tables.items htab)
      (countsAgree_resetBins Place.lostByPowerOn hs)
  | false =>
    have htab : s.startUp.tab = formattedTables := by simp [startUp_eq, State.startTables, hmark]; rfl
    intro k b
    rw [State.countOf, State.binRec?, State.tally, htab]
    rfl

/-- Settles O59: every request moves an item and its bins' counts together, and no other part of a step changes either. -/
theorem countsMatchTheItems : Obligations.CountsMatchTheItems := by
  intro s t hm hs h
  obtain ⟨-, hagree⟩ := countsAgree_stepLaw.step (fun _ hu => hu)
    (fun ⟨hm, hs⟩ _ => ⟨memoryWhole_startUp hm, countsAgree_startUp hm hs⟩) ⟨hm, countLaw_iff.1 hs⟩ h
  exact countLaw_iff.2 hagree

end Sys2Proof.Machine
end

section
/-! The day, the category table and the patron records (Chapter 2). -/
namespace Sys2Proof.Machine

variable {s : State} {o : Operands} {c : Category}

/-! ## Operand codes -/

@[simp] theorem category_ofCode_code (c : Category) : Category.ofCode c.code = some c := by cases c <;> rfl

theorem category_ofCode_of_large {n : Nat} (h : 3 < n) : Category.ofCode n = none := by
  match n, h with
  | n + 4, _ => rfl

@[simp] theorem flag?_flagCode (f : Bool) : flag? (flagCode f) = some f := by cases f <;> rfl

theorem flag?_of_large {n : Nat} (h : 1 < n) : flag? n = none := by
  match n, h with
  | n + 2, _ => rfl

theorem exists_flag_of_le {n : Nat} (h : n ≤ 1) : ∃ f : Bool, n = flagCode f := by
  match n, h with
  | 0, _ => exact ⟨false, rfl⟩
  | 1, _ => exact ⟨true, rfl⟩

/-- A request with one check. -/
theorem judged_of_check {i : Instr} {code : Word} {e : Evaluation} {p : Prop} [Decidable p] {refusal c : Code} {a : Answer}
    {t : State} (hi : exec i s = .next (s.takeRequest code e)) (hw : s.windowFree = true)
    (hok : p → e s.operands (s.storeRequest code) = .answer c a t)
    (hno : ¬ p → e s.operands (s.storeRequest code) = .refuse refusal) :
    Judged s i code [(decide p, refusal)] (t.endRequest c a) := by
  by_cases hp : p
  · exact judged_of_evaluation hi hw (fun _ => hok hp) fun c' hc => by simp [firstFailing, hp] at hc
  · refine judged_of_evaluation hi hw (fun hn => ?_) fun c' hc => ?_
    · simp [firstFailing, hp] at hn
    · rw [decide_eq_false hp] at hc
      exact (hno hp).trans (congrArg Reply.refuse (Option.some.inj hc))

/-! ## SET DAY (R36) -/

section
variable (hw : s.windowFree = true)
include hw

theorem exec_setDay (h : s.tab.day ≤ s.operands.cell 0) : exec .setDay s =
    .next (State.requestDone 0x09 .ok { a0 := word s.tab.day } { s with tab.day := s.operands.cell 0 }) :=
  next_answered (e := setDay) (t := { s.storeRequest 0x09 with tab.day := s.operands.cell 0 }) hw (if_neg (Nat.not_lt.2 h))

theorem exec_setDay_backward (h : s.operands.cell 0 < s.tab.day) :
    exec .setDay s = .next (s.requestDone 0x09 .dayBackward {}) :=
  next_refused (e := setDay) hw (if_pos h)

/-! ## SET CATEGORY and READ CATEGORY (R38) -/

theorem judged_setCategory (h : s.operands.cell 0 = c.code) :
    Judged s .setCategory 0x0A [(decide (s.operands.cell 1 ≤ 63 ∧ s.operands.cell 2 ≤ 180), .badOperand)]
      (State.requestDone 0x0A .ok { a0 := word (s.categoryRow c).limit, a1 := word (s.categoryRow c).maxDays }
        { s with tab.categories := s.tab.categories.set c.row ⟨s.operands.cell 1, s.operands.cell 2⟩ }) := by
  refine judged_of_check (e := setCategory) (t := { s.storeRequest 0x0A with
    tab.categories := s.tab.categories.set c.row ⟨s.operands.cell 1, s.operands.cell 2⟩ }) rfl hw (fun hrange => ?_)
    fun hrange => ?_
  · simp only [setCategory, h, category_ofCode_code, if_pos hrange]
    rfl
  · simp only [setCategory, h, category_ofCode_code, if_neg hrange]

theorem exec_readCategory (h : s.operands.cell 0 = c.code) : exec .readCategory s = .next (s.requestDone 0x0B .ok
    { a0 := word (s.categoryRow c).limit, a1 := word (s.categoryRow c).maxDays }) :=
  next_answered (e := readCategory) (t := s.storeRequest 0x0B) hw (by simp only [readCategory, h, category_ofCode_code]; rfl)

theorem exec_setCategory_bad (h : 3 < s.operands.cell 0) :
    exec .setCategory s = .next (s.requestDone 0x0A .badOperand {}) :=
  next_refused (e := setCategory) hw (by simp only [setCategory, category_ofCode_of_large h])

theorem exec_readCategory_bad (h : 3 < s.operands.cell 0) :
    exec .readCategory s = .next (s.requestDone 0x0B .badOperand {}) :=
  next_refused (e := readCategory) hw (by simp only [readCategory, category_ofCode_of_large h])

end

/-- Settles O6: each request by its own checks. -/
theorem dayAndCategoryRowsAreSet : Obligations.DayAndCategoryRowsAreSet :=
  ⟨fun _ hw => ⟨exec_setDay hw, exec_setDay_backward hw⟩,
    fun _ hw => ⟨fun _ h => ⟨judged_setCategory hw h, exec_readCategory hw h⟩,
      fun h => ⟨exec_setCategory_bad hw h, exec_readCategory_bad hw h⟩⟩⟩

/-! ## Patron numbers and their records -/

theorem validPatron_iff {n : PatronNo} : validPatron n = true ↔ 1 ≤ n ∧ n ≤ 1048575 := by
  simp only [validPatron, Bool.and_eq_true, decide_eq_true_eq]
  exact Iff.rfl

theorem decide_patronRange (n : PatronNo) : decide (1 ≤ n ∧ n ≤ 1048575) = validPatron n := by
  rw [Bool.eq_iff_iff, decide_eq_true_eq, validPatron_iff]

theorem validTag_iff {x : Tag} : validTag x = true ↔ 1 ≤ x ∧ x ≤ 16777215 := by
  simp only [validTag, Bool.and_eq_true, decide_eq_true_eq]
  exact Iff.rfl

theorem decide_tagRange (x : Tag) : decide (1 ≤ x ∧ x ≤ 16777215) = validTag x := by
  rw [Bool.eq_iff_iff, decide_eq_true_eq, validTag_iff]

@[simp] theorem patron?_storeRequest (code : Word) (n : PatronNo) : (s.storeRequest code).patron? n = s.patron? n := rfl

@[simp] theorem item?_storeRequest (code : Word) (x : Tag) : (s.storeRequest code).item? x = s.item? x := rfl

section
variable {e : PatronNo → Patron → Evaluation}

theorem onPatron_bad (h : ¬ (1 ≤ o.patron ∧ o.patron ≤ 1048575)) : onPatron e o s = .refuse .badOperand :=
  if_neg (mt validPatron_iff.1 h)

variable (hlo : 1 ≤ o.patron) (hhi : o.patron ≤ 1048575)
include hlo hhi

theorem onPatron_none (h : s.patron? o.patron = none) : onPatron e o s = .refuse .noRecord := by
  simp only [onPatron, if_pos (validPatron_iff.2 ⟨hlo, hhi⟩), h]

theorem onPatron_some {p : Patron} (h : s.patron? o.patron = some p) : onPatron e o s = e o.patron p o s := by
  simp only [onPatron, if_pos (validPatron_iff.2 ⟨hlo, hhi⟩), h]

end

/-! ## ENROL PATRON (R30) -/

section
variable (hw : s.windowFree = true)
include hw

theorem judged_enrolPatron (h : s.operands.cell 2 = c.code) :
    Judged s .enrolPatron 0x13
      [(decide (1 ≤ s.operands.patron ∧ s.operands.patron ≤ 1048575), .badOperand),
       ((s.patron? s.operands.patron).isNone, .duplicate),
       (decide (s.tab.patrons.length < 4096), .tableFull)]
      ((s.putPatron s.operands.patron { category := c, holdCount := 0, blocked := false, loans := [] }).requestDone 0x13
        .ok {}) := by
  rw [decide_patronRange]
  refine judged_of_evaluation (e := enrolPatron) (t := (s.storeRequest 0x13).putPatron s.operands.patron
    { category := c, holdCount := 0, blocked := false, loans := [] }) rfl hw (fun hn => ?_) fun c' hc => ?_
  all_goals
    simp only [enrolPatron, h, category_ofCode_code, patron?_storeRequest]
    split
  · rename_i hsome
    exact absurd (hsome.symm.trans hn) nofun
  · rfl
  · rename_i hsome
    exact congrArg Reply.refuse (Option.some.inj (hsome.symm.trans hc))
  · rename_i hnone
    exact absurd (hnone.symm.trans hc) nofun

theorem exec_enrolPatron_bad (h : 3 < s.operands.cell 2) : exec .enrolPatron s = .next (s.requestDone 0x13 .badOperand {}) :=
  next_refused (e := enrolPatron) hw (by simp only [enrolPatron, category_ofCode_of_large h])

/-! ## RETIRE PATRON and SET PATRON BLOCK (R31, R32) -/

theorem exec_setPatronBlock_badFlag (h : 1 < s.operands.cell 2) :
    exec .setPatronBlock s = .next (s.requestDone 0x15 .badOperand {}) :=
  next_refused (e := setPatronBlock) hw (by simp only [setPatronBlock, flag?_of_large h])

theorem exec_retirePatron_bad (h : ¬ (1 ≤ s.operands.patron ∧ s.operands.patron ≤ 1048575)) :
    exec .retirePatron s = .next (s.requestDone 0x14 .badOperand {}) :=
  next_refused (e := retirePatron) hw (onPatron_bad h)

theorem exec_setPatronBlock_bad (h : ¬ (1 ≤ s.operands.patron ∧ s.operands.patron ≤ 1048575)) :
    exec .setPatronBlock s = .next (s.requestDone 0x15 .badOperand {}) :=
  next_refused (e := setPatronBlock) hw (by
    unfold setPatronBlock
    split
    · rfl
    · exact onPatron_bad h)

variable (hlo : 1 ≤ s.operands.patron) (hhi : s.operands.patron ≤ 1048575)
include hlo hhi

theorem exec_retirePatron_none (h : s.patron? s.operands.patron = none) :
    exec .retirePatron s = .next (s.requestDone 0x14 .noRecord {}) :=
  next_refused (e := retirePatron) hw (onPatron_none hlo hhi h)

theorem exec_setPatronBlock_none (h : s.patron? s.operands.patron = none) (hflag : s.operands.cell 2 ≤ 1) :
    exec .setPatronBlock s = .next (s.requestDone 0x15 .noRecord {}) := by
  obtain ⟨f, hf⟩ := exists_flag_of_le hflag
  exact next_refused (e := setPatronBlock) hw (by simp only [setPatronBlock, hf, flag?_flagCode]; exact onPatron_none hlo hhi h)

variable {p : Patron} (hp : s.patron? s.operands.patron = some p)
include hp

theorem judged_retirePatron :
    Judged s .retirePatron 0x14 [(decide (p.loans.length = 0 ∧ p.holdCount = 0), .inUse)]
      ((s.erasePatron s.operands.patron).requestDone 0x14 .ok {}) := by
  have heval : retirePatron s.operands (s.storeRequest 0x14) = if p.loans = [] ∧ p.holdCount = 0 then
      .answer .ok {} ((s.storeRequest 0x14).erasePatron s.operands.patron) else .refuse .inUse := onPatron_some hlo hhi hp
  have hfree : (p.loans.length = 0 ∧ p.holdCount = 0) ↔ (p.loans = [] ∧ p.holdCount = 0) := by
    rw [List.length_eq_zero_iff]
  exact judged_of_check (e := retirePatron) (t := (s.storeRequest 0x14).erasePatron s.operands.patron) rfl hw
    (fun h => heval.trans (if_pos (hfree.1 h))) fun h => heval.trans (if_neg (mt hfree.2 h))

theorem exec_setPatronBlock {f : Bool} (hf : s.operands.cell 2 = flagCode f) :
    exec .setPatronBlock s = .next ((s.putPatron s.operands.patron { p with blocked := f }).requestDone 0x15 .ok
      { a0 := word (flagCode p.blocked) }) :=
  next_answered (e := setPatronBlock) (t := (s.storeRequest 0x15).putPatron s.operands.patron { p with blocked := f }) hw
    (by simp only [setPatronBlock, hf, flag?_flagCode]; exact onPatron_some hlo hhi hp)

end

/-- Settles O7: the number's range and the record first, then each request's own checks. -/
theorem patronRecordsAreKept : Obligations.PatronRecordsAreKept :=
  fun _ hw => ⟨fun _ h => judged_enrolPatron hw h, exec_enrolPatron_bad hw,
    fun _ hlo hhi hp => ⟨judged_retirePatron hw hlo hhi hp, fun _ hf => exec_setPatronBlock hw hlo hhi hp hf⟩,
    fun h => ⟨exec_retirePatron_bad hw h, exec_setPatronBlock_bad hw h⟩, exec_setPatronBlock_badFlag hw,
    fun hlo hhi h => ⟨exec_retirePatron_none hw hlo hhi h, exec_setPatronBlock_none hw hlo hhi h⟩⟩

end Sys2Proof.Machine
end

section
/-! The reads of patrons and items (Chapter 2). -/
namespace Sys2Proof.Machine

variable {s : State} {o : Operands}

/-! ## READ PATRON and READ LOANS (R33, R34) -/

section
variable (hw : s.windowFree = true)
include hw

theorem exec_readPatron_bad (h : ¬ (1 ≤ s.operands.patron ∧ s.operands.patron ≤ 1048575)) :
    exec .readPatron s = .next (s.requestDone 0x16 .badOperand {}) :=
  next_refused (e := readPatron) hw (onPatron_bad h)

theorem exec_readLoans_bad (h : ¬ (1 ≤ s.operands.patron ∧ s.operands.patron ≤ 1048575)) :
    exec .readLoans s = .next (s.requestDone 0x17 .badOperand {}) :=
  next_refused (e := readLoans) hw (by
    unfold readLoans
    split
    · exact onPatron_bad h
    · rfl)

theorem exec_readLoans_badIndex (h : 62 < s.operands.cell 2) : exec .readLoans s = .next (s.requestDone 0x17 .badOperand {}) :=
  next_refused (e := readLoans) hw (if_neg (Nat.not_le.2 h))

variable (hlo : 1 ≤ s.operands.patron) (hhi : s.operands.patron ≤ 1048575)
include hlo hhi

theorem exec_readPatron_none (h : s.patron? s.operands.patron = none) :
    exec .readPatron s = .next (s.requestDone 0x16 .noRecord {}) :=
  next_refused (e := readPatron) hw (onPatron_none hlo hhi h)

theorem exec_readLoans_none (h : s.patron? s.operands.patron = none) (hk : s.operands.cell 2 ≤ 62) :
    exec .readLoans s = .next (s.requestDone 0x17 .noRecord {}) :=
  next_refused (e := readLoans) hw ((if_pos hk).trans (onPatron_none hlo hhi h))

variable {p : Patron} (hp : s.patron? s.operands.patron = some p)
include hp

theorem exec_readPatron :
    exec .readPatron s = .next (s.requestDone 0x16 .ok
      { a0 := bytePair p.category.code p.loans.length, a1 := bytePair p.holdCount (flagCode p.blocked)
        a2 := wordOrNone (s.headDue? p), a3 := word (flagCode (s.overdue p)) }) :=
  next_answered (e := readPatron) (t := s.storeRequest 0x16) hw (onPatron_some hlo hhi hp)

theorem exec_readLoans (hk : s.operands.cell 2 ≤ 62) :
    exec .readLoans s = .next (s.requestDone 0x17 .ok (s.loanAnswer p (s.operands.cell 2))) :=
  next_answered (e := readLoans) (t := s.storeRequest 0x17) hw ((if_pos hk).trans (onPatron_some hlo hhi hp))

end

theorem headDue?_word (p : Patron) : wordOrNone (s.headDue? p) =
    match p.loans with | t :: _ => word (s.dueOf t) | [] => 0xFFFF := by
  unfold State.headDue?
  split <;> simp_all [wordOrNone, noneWord]

theorem overdue_word (p : Patron) : word (flagCode (s.overdue p)) =
    match p.loans with | t :: _ => if s.dueOf t < s.tab.day then 1 else 0 | [] => 0 := by
  unfold State.overdue State.headDue?
  cases p.loans with
  | nil => rfl
  | cons t _ => by_cases h : s.dueOf t < s.tab.day <;> simp [h, flagCode, word]

theorem loanAnswer_some {p : Patron} {k : Nat} {t : Tag} (h : p.loans[k]? = some t) : s.loanAnswer p k =
    { a0 := word (t / 65536), a1 := word t, a2 := word (s.dueOf t), a3 := bytePair (s.renewalsOf t) p.loans.length } := by
  rw [State.loanAnswer, h]; rfl

theorem loanAnswer_none {p : Patron} {k : Nat} (h : p.loans.length ≤ k) : s.loanAnswer p k =
    { a0 := 0, a1 := 0, a2 := 0xFFFF, a3 := bytePair 0xFF p.loans.length } := by
  rw [State.loanAnswer, List.getElem?_eq_none h]; rfl

/-! ## READ ITEM (R28) -/

/-- The sections and the hold indices that READ ITEM reads. -/
theorem itemReadable_iff : o.itemReadable = true ↔
    (1 ≤ o.tag ∧ o.tag ≤ 16777215) ∧ (o.cell 2 ≤ 1 ∨ (o.cell 2 = 2 ∧ o.cell 3 ≤ 3)) := by
  simp only [Operands.itemReadable, Bool.and_eq_true, Bool.or_eq_true, decide_eq_true_eq, validTag_iff, and_assoc]
  exact and_congr_right fun _ => and_congr_right fun _ => by omega

/-- The SUMMARY section, by the item's state. -/
theorem summary_eq {i : Item} {a1 a2 : Word} (h : match i.state with
      | .shelved b => a1 = word b.val ∧ a2 = 0xFFFF
      | .held b => a1 = word b.val ∧ a2 = 0xFFFF
      | .picked k b => a1 = word k.val ∧ a2 = word b.val
      | _ => a1 = 0xFFFF ∧ a2 = 0xFFFF) :
    i.summary = { a0 := word i.state.code, a1 := a1, a2 := a2, a3 := word i.holds.length } := by
  obtain ⟨st, holds⟩ := i
  cases st <;> obtain ⟨rfl, rfl⟩ := h <;> rfl

theorem loan_of_onLoan {i : Item} {n : PatronNo} {due k : Nat} (h : i.state = .onLoan n due k) :
    i.loan = { a0 := word (n / 65536), a1 := word n, a2 := word due, a3 := word k } := by
  rw [Item.loan, h]; rfl

theorem loan_of_not_onLoan {i : Item} (h : ∀ n due k, i.state ≠ .onLoan n due k) :
    i.loan = { a0 := 0xFFFF, a1 := 0xFFFF, a2 := 0xFFFF, a3 := 0xFFFF } := by
  unfold Item.loan
  split
  · exact absurd ‹_› (h _ _ _)
  · rfl

section
variable (hw : s.windowFree = true)
include hw

theorem exec_readItem_bad (h : ¬ (1 ≤ s.operands.tag ∧ s.operands.tag ≤ 16777215) ∨ 2 < s.operands.cell 2
      ∨ (s.operands.cell 2 = 2 ∧ 3 < s.operands.cell 3)) :
    exec .readItem s = .next (s.requestDone 0x12 .badOperand {}) :=
  next_refused (e := readItem) hw (if_neg fun hr => by
    obtain ⟨htag, hsection⟩ := itemReadable_iff.1 hr
    rcases h with h | h
    · exact h htag
    · omega)

variable (hr : s.operands.itemReadable = true)
include hr

theorem exec_readItem_none (h : s.item? s.operands.tag = none) :
    exec .readItem s = .next (s.requestDone 0x12 .noRecord {}) :=
  next_refused (e := readItem) hw (by simp only [readItem, hr, if_true, item?_storeRequest, h])

theorem exec_readItem_section {i : Item} {a : Answer} (h : s.item? s.operands.tag = some i)
    (ha : s.operands.itemSection? i = some a) : exec .readItem s = .next (s.requestDone 0x12 .ok a) :=
  next_answered (e := readItem) (t := s.storeRequest 0x12) hw
    (by simp only [readItem, hr, if_true, item?_storeRequest, h, ha])

end

theorem itemSection?_summary (i : Item) (h : o.cell 2 = 0) : o.itemSection? i = some i.summary := by
  simp only [Operands.itemSection?, h]

theorem itemSection?_loan (i : Item) (h : o.cell 2 = 1) : o.itemSection? i = some i.loan := by
  simp only [Operands.itemSection?, h]

theorem itemSection?_hold (i : Item) (h : o.cell 2 = 2) (hk : o.cell 3 ≤ 3) :
    o.itemSection? i = some (i.holdAt (o.cell 3)) := by
  simp only [Operands.itemSection?, h, if_pos hk]

/-- Settles O8: each read's operand ranges and record, then the fields of its answer. -/
theorem patronAndItemReadsAnswer : Obligations.PatronAndItemReadsAnswer := by
  refine ⟨fun s p hw hlo hhi hp => ⟨?_, fun t hk ht => ?_, fun hk hlen => ?_⟩,
    fun s hw => ⟨fun h => ⟨exec_readPatron_bad hw h, exec_readLoans_bad hw h⟩, exec_readLoans_badIndex hw,
      fun hlo hhi h => ⟨exec_readPatron_none hw hlo hhi h, exec_readLoans_none hw hlo hhi h⟩⟩,
    fun s hw => ⟨exec_readItem_bad hw, fun hlo hhi hsection => ?items⟩⟩
  · have hanswer := exec_readPatron hw hlo hhi hp
    rw [headDue?_word, overdue_word] at hanswer
    exact hanswer
  · rw [exec_readLoans hw hlo hhi hp hk, loanAnswer_some ht]
  · rw [exec_readLoans hw hlo hhi hp hk, loanAnswer_none hlen]
  case items =>
    have hr : s.operands.itemReadable = true := itemReadable_iff.2 ⟨⟨hlo, hhi⟩, hsection⟩
    refine ⟨exec_readItem_none hw hr, fun i hi => ⟨fun h a1 a2 ha => ?_, fun h n due k hst => ?_, fun h hst => ?_,
      fun h n hn => ?_⟩⟩
    · exact exec_readItem_section hw hr hi ((itemSection?_summary i h).trans (congrArg some (summary_eq ha)))
    · exact exec_readItem_section hw hr hi ((itemSection?_loan i h).trans (congrArg some (loan_of_onLoan hst)))
    · exact exec_readItem_section hw hr hi ((itemSection?_loan i h).trans (congrArg some (loan_of_not_onLoan hst)))
    · subst hn
      exact exec_readItem_section hw hr hi (itemSection?_hold i h (by omega))

end Sys2Proof.Machine
end

section
/-! ENROL ITEM and RETIRE ITEM (Chapter 2). -/
namespace Sys2Proof.Machine

variable {s : State} {n : StationNo}

/-! ## ENROL ITEM (R25) -/

theorem atContext_station {o : Operands} {e : StationNo → Evaluation} (h : o.station = n.val) :
    atContext e o s = e n o s := by
  simp only [atContext, Operands.station?, index?_of_eq h]

theorem decide_pickStation (n : StationNo) : decide (n.val ≤ 3) = decide (n ≠ returnStation) := by
  revert n; decide

theorem decide_kind_not_hold (k : BinKind) : decide (k = .collection ∨ k = .intake) = decide (k ≠ .hold) := by
  cases k <;> decide

/-- Checks 1 to 6 of R25, as the statement lists them. -/
theorem enrolItemRefusal_eq (x : Tag) : enrolItemRefusal x n s = firstFailing
    [(decide (1 ≤ x ∧ x ≤ 16777215), .badOperand), (decide (n.val ≤ 3), .wrongState),
     (!(s.stationState n).isFireHeld, .zoneLocked), (decide (s.stationState n = .opened), .stationClosed),
     ((s.item? x).isNone, .duplicate)] := by
  rw [decide_tagRange, decide_pickStation]; rfl

/-- Checks 7 to 9 of R25, as the statement lists them. -/
theorem enrolItemBinRefusal_eq (r : BinRec) : enrolItemBinRefusal r s = firstFailing
    [(decide (r.kind = .collection ∨ r.kind = .intake), .wrongState), (decide (r.itemCount < r.capacity), .binFull),
     (decide (s.tab.items.length < 32768), .tableFull)] := by
  rw [decide_kind_not_hold]; rfl

section
variable (hw : s.windowFree = true) (hn : s.operands.station = n.val)
include hw hn

theorem exec_enrolItem_refused {c : Code} (h : enrolItemRefusal s.operands.tag n s = some c) :
    exec .enrolItem s = .next (s.requestDone 0x10 c {}) := by
  have hc : enrolItemRefusal s.operands.tag n (s.storeRequest 0x10) = some c := h
  exact next_refused (e := enrolItem) hw ((atContext_station hn).trans (by simp only [hc]))

variable (hfirst : enrolItemRefusal s.operands.tag n s = none)
include hfirst

theorem exec_enrolItem_notPresented (h : s.presentedBin? n = none) :
    exec .enrolItem s = .next (s.requestDone 0x10 .notPresented {}) := by
  have hc : enrolItemRefusal s.operands.tag n (s.storeRequest 0x10) = none := hfirst
  have hb : (s.storeRequest 0x10).presentedBin? n = none := h
  exact next_refused (e := enrolItem) hw ((atContext_station hn).trans (by simp only [hc, hb]))

theorem judged_enrolItem {b : BinNo} {r : BinRec} (h : s.presentedBin? n = some (b, r)) :
    Judged s .enrolItem 0x10
      [(decide (r.kind = .collection ∨ r.kind = .intake), .wrongState), (decide (r.itemCount < r.capacity), .binFull),
       (decide (s.tab.items.length < 32768), .tableFull)]
      (((s.putItem s.operands.tag { state := .shelved b, holds := [] }).countIn b).requestDone 0x10 .ok
        { a0 := word b.val, a1 := word (r.itemCount + 1) }) := by
  have hc : enrolItemRefusal s.operands.tag n (s.storeRequest 0x10) = none := hfirst
  have hb : (s.storeRequest 0x10).presentedBin? n = some (b, r) := h
  have hbin : enrolItemBinRefusal r (s.storeRequest 0x10) = enrolItemBinRefusal r s := rfl
  refine judged_of_evaluation (e := enrolItem) (t := ((s.storeRequest 0x10).putItem s.operands.tag
    { state := .shelved b, holds := [] }).countIn b) rfl hw (fun hok => ?_) fun c hno => ?_
  · rw [← enrolItemBinRefusal_eq, ← hbin] at hok
    exact (atContext_station hn).trans (by simp only [hc, hb, hok])
  · rw [← enrolItemBinRefusal_eq, ← hbin] at hno
    exact (atContext_station hn).trans (by simp only [hc, hb, hno])

end

/-! ## RETIRE ITEM (R27) -/

section
variable (hw : s.windowFree = true)
include hw

theorem exec_retireItem_bad (h : ¬ (1 ≤ s.operands.tag ∧ s.operands.tag ≤ 16777215)) :
    exec .retireItem s = .next (s.requestDone 0x11 .badOperand {}) :=
  next_refused (e := retireItem) hw (if_neg (mt validTag_iff.1 h))

variable (hlo : 1 ≤ s.operands.tag) (hhi : s.operands.tag ≤ 16777215)
include hlo hhi

theorem exec_retireItem_none (h : s.item? s.operands.tag = none) :
    exec .retireItem s = .next (s.requestDone 0x11 .noRecord {}) :=
  next_refused (e := retireItem) hw
    (by simp only [retireItem, if_pos (validTag_iff.2 ⟨hlo, hhi⟩), item?_storeRequest, h])

variable {i : Item} (hi : s.item? s.operands.tag = some i)
include hi

theorem exec_retireItem_wrongState (h : i.state.retirable = false) :
    exec .retireItem s = .next (s.requestDone 0x11 .wrongState {}) :=
  next_refused (e := retireItem) hw
    (by simp only [retireItem, if_pos (validTag_iff.2 ⟨hlo, hhi⟩), item?_storeRequest, hi, h, Bool.false_eq_true, if_false])

/-- What the item's state changes, then its holds dropped and its record erased. -/
theorem exec_retireItem (h : i.state.retirable = true) :
    exec .retireItem s = .next
      ((((State.dropHolds i.holds ((s.storeRequest 0x11).retireFrom s.operands.tag i.state)).eraseItem
        s.operands.tag).settle).endRequest .ok { a0 := word i.state.code, a1 := word i.holds.length }) :=
  next_answered (e := retireItem) hw
    (by simp only [retireItem, if_pos (validTag_iff.2 ⟨hlo, hhi⟩), item?_storeRequest, hi, if_pos h])

end

/-- Settles O9: the two groups of checks of ENROL ITEM, and RETIRE ITEM by the state of the item. -/
theorem itemsAreEnrolledAndRetired : Obligations.ItemsAreEnrolledAndRetired := by
  refine ⟨fun s n hw hn => ?enrol, fun s hw => ⟨exec_retireItem_bad hw, fun hlo hhi => ⟨exec_retireItem_none hw hlo hhi,
    fun i hi => ?retire⟩⟩⟩
  case enrol =>
    dsimp only
    rw [← enrolItemRefusal_eq]
    exact ⟨fun c => exec_enrolItem_refused hw hn, exec_enrolItem_notPresented hw hn,
      fun hfirst b r => judged_enrolItem hw hn hfirst⟩
  case retire =>
    refine ⟨fun b hst => ?_, fun hst => ?_, fun hst => ?_, fun hst => ?_⟩
    · rw [exec_retireItem hw hlo hhi hi (by rw [hst]; rfl), hst]; rfl
    · rw [exec_retireItem hw hlo hhi hi (by rw [hst]; rfl), hst]; rfl
    · rw [exec_retireItem hw hlo hhi hi (by rw [hst]; rfl), hst]; rfl
    · refine exec_retireItem_wrongState hw hlo hhi hi ?_
      rcases hst with ⟨b, hst⟩ | ⟨k, b, hst⟩ | ⟨n, due, k, hst⟩ <;> rw [hst] <;> rfl

end Sys2Proof.Machine
end

section
/-! Aisle queues and loan lists: an entry joins a list behind the members that stand before it. -/
namespace Sys2Proof.Machine

/-! ## Joining behind the leading members that pass a test -/

section
variable {α : Type} {p : α → Bool} {x : α} {l : List α}

/-- A list with an entry put behind its leading members that pass a test. -/
def insertBehind (p : α → Bool) (x : α) (l : List α) : List α := l.takeWhile p ++ x :: l.dropWhile p

theorem insertBehind_nil : insertBehind p x [] = [x] := rfl

theorem insertBehind_cons (y : α) :
    insertBehind p x (y :: l) = if p y then y :: insertBehind p x l else x :: y :: l := by
  cases h : p y <;> simp [insertBehind, h]

theorem mem_insertBehind {z : α} : z ∈ insertBehind p x l ↔ z = x ∨ z ∈ l := by
  have h : z ∈ l ↔ z ∈ l.takeWhile p ∨ z ∈ l.dropWhile p := by
    rw [← List.mem_append, List.takeWhile_append_dropWhile]
  rw [h, insertBehind, List.mem_append, List.mem_cons, or_left_comm]

theorem length_insertBehind : (insertBehind p x l).length = l.length + 1 := by
  have h : (l.takeWhile p).length + (l.dropWhile p).length = l.length := by
    rw [← List.length_append, List.takeWhile_append_dropWhile]
  simp only [insertBehind, List.length_append, List.length_cons]
  omega

theorem not_of_head?_dropWhile {y : α} (h : (l.dropWhile p).head? = some y) : p y = false := by
  simpa [h] using List.head?_dropWhile_not p l

/-- The entry stands between the members that pass the test and the first one that does not. -/
theorem insertBehind_splits : ∃ front back, l = front ++ back ∧ insertBehind p x l = front ++ x :: back
    ∧ (∀ y ∈ front, p y = true) ∧ ∀ y, back.head? = some y → p y = false :=
  ⟨_, _, List.takeWhile_append_dropWhile.symm, rfl, fun _ => List.mem_takeWhile_imp, fun _ => not_of_head?_dropWhile⟩

/-- A list ordered by a relation stays so, when the test tells on which side of the entry a member stands. -/
theorem pairwise_insertBehind {R : α → α → Prop} (htrans : ∀ {a b c}, R a b → R b c → R a c)
    (hfront : ∀ y, p y = true → R y x) (hback : ∀ y, p y = false → R x y) (hl : l.Pairwise R) :
    (insertBehind p x l).Pairwise R := by
  induction l with
  | nil => exact List.pairwise_singleton R x
  | cons y l ih =>
    obtain ⟨hy, hl⟩ := List.pairwise_cons.1 hl
    rw [insertBehind_cons]
    cases hp : p y with
    | true =>
      refine List.pairwise_cons.2 ⟨fun z hz => ?_, ih hl⟩
      rcases mem_insertBehind.1 hz with rfl | hz
      · exact hfront y hp
      · exact hy z hz
    | false =>
      refine List.pairwise_cons.2 ⟨fun z hz => ?_, List.pairwise_cons.2 ⟨hy, hl⟩⟩
      rcases List.mem_cons.1 hz with rfl | hz
      · exact hback z hp
      · exact htrans (hback y hp) (hy z hz)

end

/-! ## Aisle queues (R48) -/

section
variable (priority : OrderNo → Nat) (o : OrderNo)

/-- Whether an order stands before another one that joins its queue (R48). -/
def standsBefore (x : OrderNo) : Bool := decide (priority o ≤ priority x)

theorem queueInsert_eq : ∀ q : List OrderNo, queueInsert priority o q = insertBehind (standsBefore priority o) o q
  | [] => rfl
  | x :: q => by
    rw [insertBehind_cons, ← queueInsert_eq q]
    simp [queueInsert, standsBefore]

theorem queueInsert_splits (q : List OrderNo) : ∃ front back, q = front ++ back ∧ queueInsert priority o q = front ++ o :: back
    ∧ (∀ x ∈ front, priority o ≤ priority x) ∧ ∀ x, back.head? = some x → priority x < priority o := by
  simpa [queueInsert_eq, standsBefore] using insertBehind_splits (p := standsBefore priority o) (x := o) (l := q)

theorem pairwise_queueInsert {q : List OrderNo} (h : q.Pairwise fun x y => priority y ≤ priority x) :
    (queueInsert priority o q).Pairwise fun x y => priority y ≤ priority x := by
  rw [queueInsert_eq]
  exact pairwise_insertBehind (fun hab hbc => le_trans hbc hab) (fun _ => of_decide_eq_true)
    (fun _ hy => le_of_not_ge (of_decide_eq_false hy)) h

end

/-! ## Loan lists (R116) -/

section
variable (dueOf : Tag → Nat) (d : Nat) (t : Tag)

/-- Whether an entry of a loan list is due on a day or before (R116). -/
def dueBy (x : Tag) : Bool := decide (dueOf x ≤ d)

theorem loanInsert_eq : ∀ l : List Tag, loanInsert dueOf d t l = insertBehind (dueBy dueOf d) t l
  | [] => rfl
  | x :: l => by
    rw [insertBehind_cons, ← loanInsert_eq l]
    simp [loanInsert, dueBy]

theorem loanInsert_splits (l : List Tag) : ∃ front back, l = front ++ back ∧ loanInsert dueOf d t l = front ++ t :: back
    ∧ (∀ x ∈ front, dueOf x ≤ d) ∧ ∀ x, back.head? = some x → d < dueOf x := by
  simpa [loanInsert_eq, dueBy] using insertBehind_splits (p := dueBy dueOf d) (x := t) (l := l)

theorem length_loanInsert (l : List Tag) : (loanInsert dueOf d t l).length = l.length + 1 := by
  rw [loanInsert_eq, length_insertBehind]

theorem pairwise_loanInsert {l : List Tag} (hd : dueOf t = d) (h : l.Pairwise fun x y => dueOf x ≤ dueOf y) :
    (loanInsert dueOf d t l).Pairwise fun x y => dueOf x ≤ dueOf y := by
  subst hd
  rw [loanInsert_eq]
  exact pairwise_insertBehind (fun hab hbc => le_trans hab hbc) (fun _ => of_decide_eq_true)
    (fun _ hy => le_of_not_ge (of_decide_eq_false hy)) h

end

/-- Settles O12: both lists put an entry behind the leading members that pass a test. -/
theorem queuesAndLoanListsKeepTheirOrder : Obligations.QueuesAndLoanListsKeepTheirOrder :=
  ⟨fun priority o q => ⟨queueInsert_splits priority o q, pairwise_queueInsert priority o⟩,
    fun dueOf d t l => ⟨loanInsert_splits dueOf d t l, length_loanInsert dueOf d t l, pairwise_loanInsert dueOf d t⟩⟩

end Sys2Proof.Machine
end

section
/-! What the Order Unit's shared operations change, each said once: creating, finishing and halting an order, and waking the
wing. -/
namespace Sys2Proof.Machine

variable {s : State} {o : OrderNo} {r : Order} {a : Aisle}

/-! ## A bin's place (R11) -/

theorem binRec?_setPlace_self {b : BinNo} {rec : BinRec} (h : s.binRec? b = some rec) (p : Place) :
    (s.setPlace b p).binRec? b = some { rec with place := p } := by
  rw [State.setPlace, binRec?_changeBin, if_pos rfl, h]
  rfl

/-! ## Creating an order (R41) -/

/-- Placing an order changes its entry, its bin's holder and the aisle queues, and nothing else. -/
theorem placeOrder_frame (o : OrderNo) (r : Order) :
    ∃ q, s.placeOrder o r = { (s.putOrder o r).setHolder r.bin (some o) with ou.queues := q } := by
  simp only [State.placeOrder]
  split
  · exact ⟨_, rfl⟩
  · exact ⟨_, rfl⟩

/-! ## Finishing an order (R43, R130) -/

/-- Dropping a current order writes the Aisle Link Controller's part alone, and from that part alone. -/
theorem dropCurrent_eq {t : State} (h : t.alc = s.alc) (a : Aisle) (o : OrderNo) :
    t.dropCurrent a o = { t with alc := (s.dropCurrent a o).alc } := by
  have hs : t.shuttle a = s.shuttle a := by rw [State.shuttle, h, State.shuttle]
  by_cases hc : (s.shuttle a).order = some o
  · simp only [State.dropCurrent, hs, if_pos hc, State.changeShuttle, State.putShuttle, h]
  · simp only [State.dropCurrent, hs, if_neg hc, ← h]

/-- The ending at an order's destination writes the Station Unit's part alone, and from that part alone. -/
theorem endDestination_eq {t : State} (h : t.su = s.su) (o : OrderNo) (b : BinNo) (out : Outcome) (d : Option Dest) :
    t.endDestination o b out d = { t with su := (s.endDestination o b out d).su } := by
  match d with
  | none => rw [State.endDestination, State.endDestination, ← h]
  | some (.pick n) => simp only [State.endDestination, State.unreserve, State.setReserved, State.reserved, h]
  | some (.ret p) =>
    have hp : t.position p = s.position p := by cases p <;> simp only [State.position, h]
    simp only [State.endDestination, State.endPositionFetch, hp]
    split
    · simp only [State.setPosition, h]
    · rw [← h]

/-- All that the finishing of an order changes. -/
theorem finishOrder_eq (h : s.order? o = some r) (out : Outcome) : s.finishOrder o out = { s with
    tab := (s.setHolder r.bin none).tab
    ou.orders := s.ou.orders.set o (some { r with stage := .finished (r.outcomeOf out), pendingOutcome := none })
    ou.queues := s.ou.queues.set r.aisle ((s.queue r.aisle).filter (· ≠ o))
    ou.auditCount := s.ou.auditCount - (if r.source = .audit then 1 else 0)
    alc := (s.dropCurrent r.aisle o).alc
    su := (s.endDestination o r.bin (r.outcomeOf out) r.dest).su } := by
  have hends : ∀ u : State, u.alc = s.alc → u.su = s.su →
      (u.dropCurrent r.aisle o).endDestination o r.bin (r.outcomeOf out) r.dest = { u with
        alc := (s.dropCurrent r.aisle o).alc
        su := (s.endDestination o r.bin (r.outcomeOf out) r.dest).su } := by
    intro u halc hsu
    rw [dropCurrent_eq halc]
    rw [endDestination_eq (s := s)]
    exact hsu
  simp only [State.finishOrder, h]
  rw [hends]
  · split
    · rfl
    · rfl
  · rfl
  · rfl

theorem binRec?_finishOrder (h : s.order? o = some r) (out : Outcome) (b : BinNo) : (s.finishOrder o out).binRec? b =
    (s.binRec? b).map fun x => if b = r.bin then { x with holder := none } else x := by
  rw [finishOrder_eq h]
  exact binRec?_changeBin_map r.bin b _

theorem binRec?_finishOrder_self (h : s.order? o = some r) (out : Outcome) {rec : BinRec} (hb : s.binRec? r.bin = some rec) :
    (s.finishOrder o out).binRec? r.bin = some { rec with holder := none } := by
  simp [binRec?_finishOrder h, hb]

theorem queue_finishOrder (h : s.order? o = some r) (out : Outcome) (a : Aisle) : (s.finishOrder o out).queue a =
    if r.aisle = a then (s.queue r.aisle).filter (· ≠ o) else s.queue a := by
  rw [finishOrder_eq h]
  exact queue_setQueue s r.aisle a _

theorem shuttle_dropCurrent (a b : Aisle) (o : OrderNo) : (s.dropCurrent a o).shuttle b =
    if a = b ∧ (s.shuttle b).order = some o then { s.shuttle b with order := none } else s.shuttle b := by
  by_cases ho : (s.shuttle a).order = some o
  · simp only [State.dropCurrent, if_pos ho, shuttle_changeShuttle]
    by_cases hab : a = b
    · subst hab
      simp [ho]
    · simp [hab]
  · simp only [State.dropCurrent, if_neg ho]
    rw [if_neg]
    rintro ⟨rfl, hb⟩
    exact ho hb

theorem shuttle_finishOrder (h : s.order? o = some r) (out : Outcome) (b : Aisle) :
    (s.finishOrder o out).shuttle b = (s.dropCurrent r.aisle o).shuttle b := by
  rw [finishOrder_eq h]
  rfl

theorem au_finishOrder (h : s.order? o = some r) (out : Outcome) : (s.finishOrder o out).au = s.au := by
  rw [finishOrder_eq h]

/-! ### On an IDLE shuttle -/

section
variable (h : s.order? o = some r) (out : Outcome)
include h

theorem order?_finishIdle (q : OrderNo) : (s.finishIdle a o out).order? q =
    if o = q then some { r with stage := .finished (r.outcomeOf out), pendingOutcome := none } else s.order? q :=
  order?_finishOrder (s.goIdle a) h out q

theorem binRec?_finishIdle_self {rec : BinRec} (hb : s.binRec? r.bin = some rec) :
    (s.finishIdle a o out).binRec? r.bin = some { rec with holder := none } :=
  binRec?_finishOrder_self (s := s.goIdle a) h out hb

/-- The shuttle is IDLE without an order; nothing else of its record changes (R70). -/
theorem shuttle_finishIdle : (s.finishIdle a o out).shuttle a = { s.shuttle a with state := .idle, order := none } := by
  have hidle : (s.goIdle a).shuttle a = { s.shuttle a with state := .idle, order := none } := by
    rw [State.goIdle, shuttle_changeShuttle, if_pos rfl]
  rw [State.finishIdle, shuttle_finishOrder (s := s.goIdle a) h, shuttle_dropCurrent, hidle]
  exact if_neg (by simp)

theorem au_finishIdle : (s.finishIdle a o out).au = s.au := au_finishOrder (s := s.goIdle a) h out

end

/-! ## Entering a stage (R51) -/

theorem slot_enterStage (a b : Aisle) (o : OrderNo) (r : Order) (st : RunStage) (m : Motion) :
    (s.enterStage a o r st m).slot b = if a = b then some (.command m false) else s.slot b :=
  slot_giveCommand _ a b m false

theorem shuttle_enterStage (a b : Aisle) (o : OrderNo) (r : Order) (st : RunStage) (m : Motion) :
    (s.enterStage a o r st m).shuttle b =
      if a = b then { s.shuttle a with command := some ⟨m, .sent, false⟩, deadline := none } else s.shuttle b :=
  shuttle_giveCommand _ a b m false

/-! ## Current orders and halting (R57) -/

theorem currentOrder?_eq (s : State) (a : Aisle) :
    s.currentOrder? a = (s.shuttle a).order.bind fun o => (s.order? o).map fun r => (o, r) := by
  unfold State.currentOrder?
  cases (s.shuttle a).order with
  | none => rfl
  | some o => cases h : s.order? o <;> simp [h]

theorem currentOrder?_eq_some : s.currentOrder? a = some (o, r) ↔ (s.shuttle a).order = some o ∧ s.order? o = some r := by
  simp only [currentOrder?_eq, Option.bind_eq_some_iff, Option.map_eq_some_iff]
  constructor
  · rintro ⟨o', ho, r', hr, heq⟩
    cases heq
    exact ⟨ho, hr⟩
  · exact fun ⟨ho, hr⟩ => ⟨o, ho, r, hr, rfl⟩

/-- The entry of an order halted in a stage (R57). -/
def Order.haltedIn (r : Order) (st : RunStage) (m : Motion) (reason : HaltReason) : Order :=
  { r with stage := .halted { stageAt := st, command := m, completionSeen := decide (st = .holding), reason } }

section
variable (hc : s.currentOrder? a = some (o, r)) (reason : HaltReason)
include hc

theorem haltCurrent_of_run {st : RunStage} {m : Motion} (hst : r.stage = .run st) (hm : s.stageCommand? r st = some m) :
    s.haltCurrent a reason = s.putOrder o (r.haltedIn st m reason) := by
  simp only [State.haltCurrent, hc, hst, hm, Order.haltedIn]

theorem haltCurrent_of_halted {h : Restart} (hst : r.stage = .halted h) : s.haltCurrent a reason = s := by
  simp only [State.haltCurrent, hc, hst]

end

/-- Halting leaves all as it is, or halts a running order. -/
theorem haltCurrent_cases (a : Aisle) (reason : HaltReason) : s.haltCurrent a reason = s ∨
    ∃ o r st m, s.currentOrder? a = some (o, r) ∧ r.stage = .run st
      ∧ s.haltCurrent a reason = s.putOrder o (r.haltedIn st m reason) := by
  cases hc : s.currentOrder? a with
  | none => exact .inl (by simp only [State.haltCurrent, hc])
  | some q =>
    obtain ⟨o, r⟩ := q
    cases hst : r.stage with
    | run st =>
      cases hm : s.stageCommand? r st with
      | none => exact .inl (by simp only [State.haltCurrent, hc, hst, hm])
      | some m => exact .inr ⟨o, r, st, m, rfl, hst, haltCurrent_of_run hc reason hst hm⟩
    | halted h => exact .inl (haltCurrent_of_halted hc reason hst)
    | finished out => exact .inl (by simp only [State.haltCurrent, hc, hst])

/-- Halting changes the order entries alone. -/
theorem haltCurrent_frame (a : Aisle) (reason : HaltReason) : ∃ v, s.haltCurrent a reason = { s with ou.orders := v } := by
  obtain h | ⟨o, r, st, m, -, -, h⟩ := haltCurrent_cases (s := s) a reason
  · exact ⟨s.ou.orders, h⟩
  · exact ⟨_, h⟩

theorem stageReached_of_run {st : RunStage} (h : r.stage = .run st) : r.stageReached = some st := by
  simp only [Order.stageReached, h]

/-- The fields of a capture about a shuttle (R83). -/
theorem shuttleCapture_eq (kind : FaultKind) (a : Aisle) (code : Option Byte) : s.shuttleCapture kind a code =
    { kind := kind, shuttle := some a, order := (s.currentOrder? a).map (·.1)
      bin := match s.currentOrder? a with | some (_, r) => some r.bin | none => (s.shuttle a).carried
      stage := (s.currentOrder? a).bind fun q => q.2.stageReached
      code := code } := by
  unfold State.shuttleCapture
  cases s.currentOrder? a <;> rfl

/-- A capture names the same order, bin and stage before and after the halt (R83). -/
theorem shuttleCapture_haltCurrent (a : Aisle) (reason : HaltReason) (kind : FaultKind) (code : Option Byte) :
    (s.haltCurrent a reason).shuttleCapture kind a code = s.shuttleCapture kind a code := by
  obtain h | ⟨o, r, st, m, hc, hst, h⟩ := haltCurrent_cases (s := s) a reason
  · rw [h]
  · have hcur : (s.putOrder o (r.haltedIn st m reason)).currentOrder? a = some (o, r.haltedIn st m reason) :=
      currentOrder?_eq_some.2 ⟨(currentOrder?_eq_some.1 hc).1, by rw [order?_putOrder, if_pos rfl]⟩
    rw [h, shuttleCapture_eq, shuttleCapture_eq, hcur, hc]
    simp only [Option.bind_some, stageReached_of_run hst]
    rfl

/-! ## Waking (R67) -/

/-- A PARKED shuttle whose zone is NORMAL becomes IDLE; any other stays as it is. -/
def Shuttle.unparked (normal : Bool) (r : Shuttle) : Shuttle :=
  if r.state = .parked ∧ normal = true then { r with state := .idle, order := none } else r

theorem Shuttle.unparked_unparked (normal : Bool) (r : Shuttle) : (r.unparked normal).unparked normal = r.unparked normal := by
  by_cases h : r.state = .parked ∧ normal = true
  · simp only [Shuttle.unparked, if_pos h, reduceCtorEq, false_and, if_false]
  · simp only [Shuttle.unparked, if_neg h]

/-- One shuttle's part in the move to ACTIVE. -/
def State.unpark (s : State) (a : Aisle) : State := s.putShuttle a ((s.shuttle a).unparked (s.aisleNormal a))

theorem putShuttle_shuttle (s : State) (a : Aisle) : s.putShuttle a (s.shuttle a) = s := by
  simp [State.putShuttle, State.shuttle]

theorem becomeActive_eq (s : State) : s.becomeActive = aisles.foldl State.unpark { s with ou.quiet := .active } := by
  have h : (fun (s : State) a => if (s.shuttle a).state = .parked ∧ s.aisleNormal a then s.goIdle a else s) = State.unpark := by
    funext t a
    simp only [State.unpark, Shuttle.unparked]
    split
    · rfl
    · rw [putShuttle_shuttle]
  rw [State.becomeActive, h]

theorem unparks_frame : ∀ (l : List Aisle) (s : State), ∃ v, l.foldl State.unpark s = { s with alc.shuttles := v }
  | [], s => ⟨s.alc.shuttles, rfl⟩
  | a :: l, s => by
    obtain ⟨v, hv⟩ := unparks_frame l (s.unpark a)
    exact ⟨v, hv⟩

theorem shuttle_unparks (a : Aisle) : ∀ (l : List Aisle) (s : State), (l.foldl State.unpark s).shuttle a =
    if a ∈ l then (s.shuttle a).unparked (s.aisleNormal a) else s.shuttle a
  | [], _ => rfl
  | b :: l, s => by
    have hzone : (s.unpark b).aisleNormal a = s.aisleNormal a := rfl
    rw [List.foldl_cons, shuttle_unparks a l, hzone, State.unpark, shuttle_putShuttle]
    by_cases hb : b = a
    · subst hb
      simp [Shuttle.unparked_unparked]
    · simp [hb, Ne.symm hb]

/-- The move to ACTIVE changes the quiet state and the shuttles alone. -/
theorem becomeActive_frame (s : State) : ∃ v, s.becomeActive = { s with ou.quiet := .active, alc.shuttles := v } := by
  rw [becomeActive_eq]
  exact unparks_frame aisles _

theorem mem_aisles (a : Aisle) : a ∈ aisles := by revert a; decide

theorem shuttle_becomeActive (s : State) (a : Aisle) :
    s.becomeActive.shuttle a = (s.shuttle a).unparked (s.aisleNormal a) := by
  rw [becomeActive_eq, shuttle_unparks, if_pos (mem_aisles a)]
  rfl

theorem wakeByNeed_of_quiet (h : s.ou.quiet = .quiet) : s.wakeByNeed = s.becomeActive.latch .woken := if_pos h

theorem wakeByNeed_of_not_quiet (h : s.ou.quiet ≠ .quiet) : s.wakeByNeed = s := if_neg h

/-- Waking changes the quiet state, the shuttles and the latches alone. -/
theorem wakeByNeed_frame (s : State) :
    ∃ q v l, s.wakeByNeed = { s with ou.quiet := q, alc.shuttles := v, au.latches := l } := by
  by_cases h : s.ou.quiet = .quiet
  · obtain ⟨v, hv⟩ := becomeActive_frame s
    rw [wakeByNeed_of_quiet h, hv]
    exact ⟨_, _, _, rfl⟩
  · rw [wakeByNeed_of_not_quiet h]
    exact ⟨s.ou.quiet, s.alc.shuttles, s.au.latches, rfl⟩

/-- A wing woken out of QUIET is ACTIVE, with WOKEN latched. -/
theorem wakeByNeed_wakes (h : s.ou.quiet = .quiet) :
    s.wakeByNeed.ou.quiet = .active ∧ s.wakeByNeed.pendingCause .woken = true := by
  obtain ⟨v, hv⟩ := becomeActive_frame s
  rw [wakeByNeed_of_quiet h]
  refine ⟨?_, latchSet_latch_self (s := s.becomeActive) .woken⟩
  rw [hv]
  rfl

end Sys2Proof.Machine
end

section
/-! The finishing of an order (R40, R42, R43, R130). -/
namespace Sys2Proof.Machine

variable {s : State} {o : OrderNo} {r : Order}

/-! ## At the order's destination -/

theorem reserved_endDestination {k : PickNo} (h : r.dest = some (.pick k)) (b : BinNo) (out : Outcome) :
    (s.endDestination o b out r.dest).reserved k = s.reserved k - 1 := by
  rw [h]
  exact (reserved_setReserved s k k _).trans (if_pos rfl)

/-- The position that waits for the order takes its bin on OK (R130). -/
theorem position_endDestination {p : Position} (h : r.dest = some (.ret p)) (hp : s.position p = .arriving o) (b : BinNo)
    (out : Outcome) : (s.endDestination o b out r.dest).position p = if out = .ok then .presented b else .empty := by
  rw [h, State.endDestination, State.endPositionFetch, if_pos hp, position_setPosition, if_pos rfl]

/-! ## The order and its shuttle -/

theorem outcomeOf_eq_ok {out : Outcome} : r.outcomeOf out = .ok ↔ r.cancel = false ∧ out = .ok := by
  cases h : r.cancel <;> simp [Order.outcomeOf, h]

theorem order_dropCurrent_ne (a : Aisle) (o : OrderNo) : ((s.dropCurrent a o).shuttle a).order ≠ some o := by
  rw [shuttle_dropCurrent]
  split
  · simp
  · rename_i h
    exact fun ho => h ⟨rfl, ho⟩

theorem mem_orderNumbers (e : OrderNo) : e ∈ orderNumbers := by revert e; decide

theorem orderFinishedPending_of_finished {out : Outcome} (h : s.order? o = some r) (hr : r.stage = .finished out) :
    s.orderFinishedPending = true :=
  List.any_eq_true.2 ⟨o, mem_orderNumbers o, by simp only [h, Order.isFinished, hr]⟩

/-- Settles O14: what finishing changes, read place by place. -/
theorem finishedOrderLetsGo : Obligations.FinishedOrderLetsGo := by
  intro s o r out h
  have hentry := order?_finishOrder s h out
  refine ⟨(hentry o).trans (if_pos rfl), ?bin, ?queue, ?shuttle, fun k hk => ?reserved, fun p hp hpos => ?position, ?count,
    ?finished, fun o' ho' => (hentry o').trans (if_neg (Ne.symm ho'))⟩
  case bin => simpa using binRec?_finishOrder h out r.bin
  case queue => rw [queue_finishOrder h, if_pos rfl]
  case shuttle =>
    rw [shuttle_finishOrder h]
    exact order_dropCurrent_ne r.aisle o
  case reserved =>
    rw [finishOrder_eq h]
    exact reserved_endDestination hk r.bin _
  case position =>
    have hposition := position_endDestination (s := s) hp hpos r.bin (r.outcomeOf out)
    simp only [outcomeOf_eq_ok] at hposition
    rw [finishOrder_eq h, ← hposition]
    cases p <;> rfl
  case count => rw [finishOrder_eq h]
  case finished => exact orderFinishedPending_of_finished ((hentry o).trans (if_pos rfl)) rfl

end Sys2Proof.Machine
end

section
/-! FETCH at a pick station and AUDIT BIN (R46, R47, R64). -/
namespace Sys2Proof.Machine

variable {s : State} {o : Operands} {b : BinNo} {r : BinRec} {k : PickNo}

/-! ## Their checks in the statement's words -/

theorem zoneNormal_iff {z : ZoneNo} : s.zoneNormal z = true ↔ s.zoneState z = .normal := decide_eq_true_iff

theorem classAdmitted_eq (n : StationNo) : s.classAdmitted b n =
    decide (s.classOf b = .inBuilding ∨ s.classOf b = .view → s.tab.supervised[n] = true) := by
  unfold State.classAdmitted
  cases hc : s.classOf b <;> simp [State.supervised]

theorem probable_eq (p : Place) : p.probable = decide (p = .home ∨ p = .unverified ∨ p = .missing) := by
  cases p <;> simp [Place.probable]

theorem fetchRefusal_eq : fetchRefusal s b r k = firstFailing
    [(decide (r.place = .home), .wrongPlace),
     (r.holder.isNone, .inUse),
     (decide (s.classOf b ≠ .closedClass), .access),
     (decide (s.classOf b = .inBuilding ∨ s.classOf b = .view → s.tab.supervised[pickStation k] = true), .access),
     (decide (s.zoneState (zoneOf (s.homeAisle b)) = .normal ∧ s.zoneState 3 = .normal), .zoneLocked),
     (decide (s.stationState (pickStation k) = .opened), .stationClosed),
     (decide ((s.presentationQueue k).length + s.reserved k < 4), .stationFull),
     (decide (s.ou.quiet = .active), .quiet)] := by
  rw [← classAdmitted_eq, Bool.decide_and]
  rfl

theorem auditBinRefusal_eq : auditBinRefusal Config.auditBinNeedsHall s b r = firstFailing
    [(decide (r.place = .home ∨ r.place = .unverified ∨ r.place = .missing), .wrongPlace),
     (r.holder.isNone, .inUse),
     (decide (s.zoneState (zoneOf (s.homeAisle b)) = .normal
        ∧ (s.zoneState 3 = .normal ∨ Config.auditBinNeedsHall = false)), .zoneLocked),
     (decide (s.ou.quiet = .active), .quiet)] := by
  have hzones : s.auditZonesNormal Config.auditBinNeedsHall b = decide (s.zoneState (zoneOf (s.homeAisle b)) = .normal
      ∧ (s.zoneState 3 = .normal ∨ Config.auditBinNeedsHall = false)) := by
    rw [Bool.eq_iff_iff, decide_eq_true_iff]
    simp only [State.auditZonesNormal, Bool.and_eq_true, Bool.or_eq_true, Bool.not_eq_true']
    exact and_congr zoneNormal_iff (or_congr zoneNormal_iff Iff.rfl)
  rw [← hzones, ← probable_eq]
  rfl

/-! ## A priority, further checks, and an entry for the order -/

theorem firstFailing_append (l m : List (Bool × Code)) : firstFailing (l ++ m) = (firstFailing l).or (firstFailing m) := by
  induction l with
  | nil => rfl
  | cons x l ih =>
    obtain ⟨ok, c⟩ := x
    cases ok with
    | true => exact ih
    | false => rfl

/-- The reply of a request that places an order of a priority operand: its priority is checked, then its further checks are made,
and then it takes an entry. -/
def orderReply (n : Nat) (refusal : Option Code) (entry : Option OrderNo) (make : OrderNo → Fin 4 → State) : Reply :=
  match priority? n with
  | none => .refuse .badOperand
  | some pr =>
    match refusal with
    | some c => .refuse c
    | none =>
      match entry with
      | none => .refuse .noOrderEntry
      | some e => .answer .ok (orderAnswer e) (make e pr)

section
variable {n : Nat} {l : List (Bool × Code)} {entry : Option OrderNo} {make : OrderNo → Fin 4 → State}

/-- The checks of such a request, its first and its last one with them. -/
def orderChecks (n : Nat) (l : List (Bool × Code)) (entry : Option OrderNo) : List (Bool × Code) :=
  (decide (n ≤ 3), .badOperand) :: (l ++ [(entry.isSome, .noOrderEntry)])

theorem orderReply_refuses {c : Code} (h : firstFailing (orderChecks n l entry) = some c) :
    orderReply n (firstFailing l) entry make = .refuse c := by
  by_cases hn : n ≤ 3
  · rw [orderChecks, firstFailing_pass (decide_eq_true hn), firstFailing_append] at h
    have hpr : priority? n = some ⟨n, by omega⟩ := index?_of_eq rfl
    simp only [orderReply, hpr]
    cases hl : firstFailing l with
    | some c' =>
      rw [hl] at h
      exact congrArg Reply.refuse (Option.some.inj h)
    | none =>
      rw [hl] at h
      cases entry with
      | none => exact congrArg Reply.refuse (Option.some.inj h)
      | some e => cases h
  · rw [orderChecks, firstFailing_fail (by simpa using hn)] at h
    have hpr : priority? n = none := index?_of_le (by omega)
    simp only [orderReply, hpr]
    exact congrArg Reply.refuse (Option.some.inj h)

theorem orderReply_answers {e : OrderNo} {pr : Fin 4} (h : firstFailing (orderChecks n l (some e)) = none) (hpr : pr.val = n) :
    orderReply n (firstFailing l) (some e) make = .answer .ok (orderAnswer e) (make e pr) := by
  have hp : priority? n = some pr := index?_of_eq hpr.symm
  have hl : firstFailing l = none := by
    rw [firstFailing_eq_none] at h ⊢
    exact fun x hx => h x (List.mem_cons_of_mem _ (List.mem_append_left _ hx))
  simp only [orderReply, hp, hl]

end

/-! ## The order placed (R41, R48) -/

theorem priorityOf_placeOrder (e : OrderNo) (q : Order) : (s.placeOrder e q).priorityOf = (s.putOrder e q).priorityOf := by
  funext x
  simp only [State.priorityOf, order?_placeOrder, order?_putOrder]

theorem reserved_placeOrder (e : OrderNo) (q : Order) (k : PickNo) : (s.placeOrder e q).reserved k = s.reserved k := by
  obtain ⟨v, hv⟩ := placeOrder_frame (s := s) e q
  rw [hv]
  rfl

/-- A QUEUED order stands in its entry, holds its bin, and has joined its queue. -/
theorem placeOrder_queued {e : OrderNo} {q : Order} {rec : BinRec} (hst : q.stage = .run .queued)
    (hb : s.binRec? q.bin = some rec) :
    (s.placeOrder e q).order? e = some q ∧ (s.placeOrder e q).binRec? q.bin = some { rec with holder := some e }
      ∧ (s.placeOrder e q).queue q.aisle = queueInsert (s.placeOrder e q).priorityOf e (s.queue q.aisle) := by
  refine ⟨?_, ?_, ?_⟩
  · rw [order?_placeOrder, if_pos rfl]
  · rw [binRec?_placeOrder, if_pos rfl, hb]
    rfl
  · rw [queue_placeOrder, if_pos ⟨hst, rfl⟩, priorityOf_placeOrder]

/-! ## FETCH (R46, R47) -/

theorem asPick?_pickStation (k : PickNo) : asPick? (pickStation k) = some k := index?_val k

theorem fetch_eq (hk : o.station = k.val) (h : s.enrolledOperand o = .ok (b, r)) :
    fetch o s = orderReply (o.cell 2) (fetchRefusal s b r k) s.freeEntry? fun e pr => (s.makeFetch e b pr k).settle := by
  refine (atContext_station (n := pickStation k) hk).trans ?_
  simp only [h, asPick?_pickStation]
  unfold orderReply
  cases priority? (o.cell 2) <;> rfl

theorem makeFetch_reads {rec : BinRec} (hb : s.binRec? b = some rec) (e : OrderNo) (pr : Fin 4) (k : PickNo) :
    let u := s.makeFetch e b pr k
    u.order? e = some { kind := .fetch, source := .host, bin := b, aisle := s.homeAisle b, priority := pr
                        stage := .run .queued, dest := some (.pick k), cancel := false, pendingOutcome := none }
      ∧ u.binRec? b = some { rec with holder := some e } ∧ u.reserved k = s.reserved k + 1
      ∧ u.queue (s.homeAisle b) = queueInsert u.priorityOf e (s.queue (s.homeAisle b)) := by
  obtain ⟨hentry, hholder, hqueue⟩ := placeOrder_queued (e := e)
    (q := plainOrder .fetch .host b (s.homeAisle b) pr .queued (some (.pick k))) rfl hb
  refine ⟨hentry, hholder, ?_, hqueue⟩
  rw [State.makeFetch, State.reserve, reserved_setReserved, if_pos rfl, reserved_placeOrder]

/-! ## AUDIT BIN (R64) -/

theorem auditBin_eq (h : s.enrolledOperand o = .ok (b, r)) :
    auditBin o s = orderReply (o.cell 2) (auditBinRefusal Config.auditBinNeedsHall s b r) s.freeEntry? fun e pr =>
      (s.placeOrder e (plainOrder .probe .host b (s.homeAisle b) pr .queued none)).settle := by
  simp only [auditBin, auditBinUnder, h]
  unfold orderReply
  cases priority? (o.cell 2) <;> rfl

/-- Settles O10: the reply of each request by its checks, and the order that it places. -/
theorem fetchAndAuditBinQueueOrders : Obligations.FetchAndAuditBinQueueOrders := by
  refine ⟨fun s b r k hw hk h => ?fetch, fun s b r hw h => ?auditBin⟩
  case fetch =>
    have heval := fetch_eq (s := s.storeRequest 0x20) hk h
    rw [fetchRefusal_eq] at heval
    refine ⟨fun c hc => next_refused hw (heval.trans (orderReply_refuses hc)), fun e pr hc he hpr =>
      ⟨next_answered hw (heval.trans ?_), makeFetch_reads (s := s.storeRequest 0x20) (binRec?_of_enrolledOperand h) e pr k⟩⟩
    rw [he] at hc
    rw [show (s.storeRequest 0x20).freeEntry? = some e from he]
    exact orderReply_answers hc hpr
  case auditBin =>
    have heval := auditBin_eq (s := s.storeRequest 0x27) h
    rw [auditBinRefusal_eq] at heval
    refine ⟨fun c hc => next_refused hw (heval.trans (orderReply_refuses hc)), fun e pr hc he hpr =>
      ⟨next_answered hw (heval.trans ?_), placeOrder_queued rfl (binRec?_of_enrolledOperand h)⟩⟩
    rw [he] at hc
    rw [show (s.storeRequest 0x27).freeEntry? = some e from he]
    exact orderReply_answers hc hpr

end Sys2Proof.Machine
end

section
/-! The settling of a step: dispatch, held commands, and quiet parking (R49 to R51, R65, R85). -/
namespace Sys2Proof.Machine

variable {s : State} {o : OrderNo} {r : Order} {a : Aisle}

/-! ## Dispatchable orders (R49) -/

theorem zoneAdmits_iff : s.zoneAdmits r = true ↔ s.zoneState (zoneOf r.aisle) = .normal
    ∨ (s.zoneState (zoneOf r.aisle) = .recovery ∧ (r.kind = .restore ∨ r.kind = .probe)) := by
  unfold State.zoneAdmits
  cases s.zoneState (zoneOf r.aisle) <;> simp

theorem hallAdmits_iff : (decide (r.kind ≠ .stow) || s.hallNormal) = true ↔ (r.kind = .stow → s.zoneState 3 = .normal) := by
  rw [Bool.or_eq_true, decide_eq_true_iff, imp_iff_not_or]
  exact or_congr_right zoneNormal_iff

theorem quietAdmits_iff : s.quietAdmits r = true ↔ s.ou.quiet = .active
    ∨ (s.ou.quiet = .quiescing ∧ (r.kind = .stow ∨ r.source ≠ .host)) ∨ (s.ou.quiet = .quiet ∧ r.source = .recovery) := by
  unfold State.quietAdmits
  cases s.ou.quiet <;> simp

theorem carriedAdmits_iff : s.carriedAdmits r = true ↔ (s.shuttle r.aisle).carried = none
    ∨ (r.kind = .restore ∧ (s.shuttle r.aisle).carried = some r.bin) := by
  unfold State.carriedAdmits
  cases (s.shuttle r.aisle).carried <;> simp [eq_comm (a := r.bin)]

theorem dispatchable_iff (h : s.order? o = some r) : s.dispatchable o = true ↔
    (s.zoneState (zoneOf r.aisle) = .normal
      ∨ (s.zoneState (zoneOf r.aisle) = .recovery ∧ (r.kind = .restore ∨ r.kind = .probe)))
    ∧ (r.kind = .stow → s.zoneState 3 = .normal)
    ∧ (s.ou.quiet = .active ∨ (s.ou.quiet = .quiescing ∧ (r.kind = .stow ∨ r.source ≠ .host))
      ∨ (s.ou.quiet = .quiet ∧ r.source = .recovery))
    ∧ ((s.shuttle r.aisle).carried = none ∨ (r.kind = .restore ∧ (s.shuttle r.aisle).carried = some r.bin)) := by
  rw [← zoneAdmits_iff, ← hallAdmits_iff, ← quietAdmits_iff, ← carriedAdmits_iff]
  simp only [State.dispatchable, h, Bool.and_eq_true, and_assoc]

/-! ## Dispatch (R50) -/

theorem readyForOrder_iff : s.readyForOrder a = true ↔ s.slot a = none ∧ ((s.shuttle a).state = .idle
    ∨ ((s.shuttle a).state = .parked ∧ s.zoneState (zoneOf a) = .normal ∧ s.ou.quiet ≠ .active)) := by
  unfold State.readyForOrder
  rw [Bool.and_eq_true, Option.isNone_iff_eq_none]
  cases (s.shuttle a).state <;> simp [State.aisleNormal, zoneNormal_iff]

theorem dispatch_starts (hready : s.readyForOrder a = true) (hfirst : (s.queue a).find? s.dispatchable = some o) :
    s.dispatch a = s.startOrder a o := by
  simp only [State.dispatch, hready, State.firstDispatchable?, hfirst, if_true]

theorem dispatch_waits (h : (s.queue a).find? s.dispatchable = none ∨ s.readyForOrder a = false) : s.dispatch a = s := by
  rcases h with h | h
  · simp only [State.dispatch, State.firstDispatchable?, h, ite_self]
  · simp only [State.dispatch, h, Bool.false_eq_true, if_false]

/-- An order started leaves its queue, and its BUSY shuttle is given the command of its first stage. -/
theorem startOrder_eq (h : s.order? o = some r) : s.startOrder a o =
    ((s.leaveQueue a o).changeShuttle a fun t => { t with state := .busy, order := some o }).enterStage a o r
      (s.firstStep r).1 (s.firstStep r).2 := by
  simp only [State.startOrder, h]

section
variable (h : s.order? o = some r)
include h

theorem order?_startOrder (q : OrderNo) :
    (s.startOrder a o).order? q = if o = q then some { r with stage := .run (s.firstStep r).1 } else s.order? q := by
  rw [startOrder_eq h, order?_enterStage]
  rfl

theorem queue_startOrder (b : Aisle) :
    (s.startOrder a o).queue b = if b = a then (s.queue a).filter (· ≠ o) else s.queue b := by
  rw [startOrder_eq h]
  refine (queue_setQueue s a b _).trans ?_
  simp only [eq_comm]

theorem shuttle_startOrder (b : Aisle) : (s.startOrder a o).shuttle b = if a = b then { s.shuttle a with
    state := .busy, order := some o, command := some ⟨(s.firstStep r).2, .sent, false⟩, deadline := none }
    else s.shuttle b := by
  rw [startOrder_eq h, shuttle_enterStage, shuttle_changeShuttle, if_pos rfl, shuttle_changeShuttle]
  by_cases hb : a = b
  · rw [if_pos hb, if_pos hb]
    rfl
  · rw [if_neg hb, if_neg hb, if_neg hb]
    rfl

theorem slot_startOrder (b : Aisle) :
    (s.startOrder a o).slot b = if a = b then some (.command (s.firstStep r).2 false) else s.slot b := by
  rw [startOrder_eq h, slot_enterStage]
  rfl

theorem tab_startOrder : (s.startOrder a o).tab = s.tab := by rw [startOrder_eq h]; rfl

end

/-! ## Held commands (R51, R85) -/

theorem mayHandOff_iff : s.mayHandOff a = true ↔ s.outPlace a = none ∧ s.zoneState 3 = .normal := by
  rw [State.mayHandOff, Bool.and_eq_true, Option.isNone_iff_eq_none]
  exact and_congr_right' zoneNormal_iff

theorem resumeHolding_of_may (hc : s.currentOrder? a = some (o, r)) (hst : r.stage = .run .holding)
    (hmay : s.mayHandOff a = true) : s.resumeHolding a = s.enterStage a o r .handing .handOff := by
  simp only [State.resumeHolding, hc, hst, hmay, and_self, if_true]

theorem resumeHolding_of_not_may (hmay : s.mayHandOff a = false) : s.resumeHolding a = s := by
  unfold State.resumeHolding
  cases s.currentOrder? a <;> simp [hmay]

theorem resumeHolding_of_not_holding (hc : ∀ o r, s.currentOrder? a = some (o, r) → r.stage ≠ .run .holding) :
    s.resumeHolding a = s := by
  unfold State.resumeHolding
  cases h : s.currentOrder? a with
  | none => rfl
  | some q => exact if_neg fun hn => hc q.1 q.2 h hn.1

/-- A STOW's TAKE_ON is held: its BUSY shuttle has no command in flight and no message waits for it (R85; log entry 22). -/
def State.TakeOnHeld (s : State) (a : Aisle) : Prop :=
  (∃ o r, s.currentOrder? a = some (o, r) ∧ r.stage = .run .takingOn) ∧ (s.shuttle a).state = .busy
    ∧ (s.shuttle a).command = none ∧ s.slot a = none

theorem resumeTakeOn_of_held (hheld : s.TakeOnHeld a) (hhall : s.zoneState 3 = .normal)
    (hzone : s.zoneState (zoneOf a) = .normal) : s.resumeTakeOn a = s.giveCommand a .takeOn false := by
  obtain ⟨⟨o, r, hc, hst⟩, hbusy, hcommand, hslot⟩ := hheld
  simp only [State.resumeTakeOn, hc]
  exact if_pos ⟨hst, hbusy, hcommand, hslot, zoneNormal_iff.2 hhall, zoneNormal_iff.2 hzone⟩

theorem resumeTakeOn_waits (h : ¬ s.TakeOnHeld a ∨ s.zoneState 3 ≠ .normal ∨ s.zoneState (zoneOf a) ≠ .normal) :
    s.resumeTakeOn a = s := by
  unfold State.resumeTakeOn
  cases hc : s.currentOrder? a with
  | none => rfl
  | some q =>
    refine if_neg fun ⟨hst, hbusy, hcommand, hslot, hhall, hzone⟩ => ?_
    rcases h with h | h | h
    · exact h ⟨⟨q.1, q.2, hc, hst⟩, hbusy, hcommand, hslot⟩
    · exact h (zoneNormal_iff.1 hhall)
    · exact h (zoneNormal_iff.1 hzone)

/-! ## Quiet parking (R65) -/

/-- A shuttle without work that quiet running sends to its park (R65). -/
def State.ParksQuietly (s : State) (a : Aisle) : Prop :=
  s.ou.quiet ≠ .active ∧ (s.shuttle a).state = .idle ∧ s.slot a = none ∧ s.zoneState (zoneOf a) = .normal
    ∧ (s.shuttle a).carried = none ∧ (s.queue a).find? s.dispatchable = none

theorem parksQuietly_iff : (decide (s.ou.quiet ≠ .active) && decide ((s.shuttle a).state = .idle) && (s.slot a).isNone
    && s.aisleNormal a && (s.shuttle a).carried.isNone && (s.firstDispatchable? a).isNone) = true ↔ s.ParksQuietly a := by
  simp only [Bool.and_eq_true, decide_eq_true_iff, Option.isNone_iff_eq_none, State.aisleNormal, zoneNormal_iff, and_assoc]
  exact Iff.rfl

theorem quietPark_of_parks (h : s.ParksQuietly a) : s.quietPark a =
    (s.changeShuttle a fun t => { t with state := .busy, order := none }).giveCommand a .park false :=
  if_pos (parksQuietly_iff.2 h)

theorem quietPark_of_not_parks (h : ¬ s.ParksQuietly a) : s.quietPark a = s := if_neg (mt parksQuietly_iff.1 h)

theorem shuttle_quietPark (h : s.ParksQuietly a) (b : Aisle) : (s.quietPark a).shuttle b = if a = b then { s.shuttle a with
    state := .busy, order := none, command := some ⟨.park, .sent, false⟩, deadline := none } else s.shuttle b := by
  rw [quietPark_of_parks h, shuttle_giveCommand, shuttle_changeShuttle, if_pos rfl, shuttle_changeShuttle]
  by_cases hb : a = b
  · rw [if_pos hb, if_pos hb]
  · rw [if_neg hb, if_neg hb, if_neg hb]

theorem slot_quietPark (h : s.ParksQuietly a) (b : Aisle) :
    (s.quietPark a).slot b = if a = b then some (.command .park false) else s.slot b := by
  rw [quietPark_of_parks h, slot_giveCommand]
  rfl

/-! ## The ends of QUIESCING and of the sweep (R66, R63) -/

theorem tryQuiet_waits (h : s.ou.quiet ≠ .quiescing ∨ s.atQuiet = false) : s.tryQuiet = s :=
  if_neg fun ⟨hq, hat⟩ => h.elim (· hq) fun hf => Bool.noConfusion (hf.symm.trans hat)

theorem tryAuditEnd_waits (h : s.ou.sweep = false ∨ s.ou.cursor ≠ some 2048 ∨ s.ou.auditCount ≠ 0) : s.tryAuditEnd = s := by
  refine if_neg fun ⟨hsweep, hcursor, hcount⟩ => ?_
  rcases h with h | h | h
  · exact Bool.noConfusion (h.symm.trans hsweep)
  · exact h hcursor
  · exact h hcount

/-- Settles O13: each block's look for work, by its own condition. -/
theorem settlingGivesTheBlocksTheirWork : Obligations.SettlingGivesTheBlocksTheirWork := by
  refine fun s => ⟨⟨rfl, rfl, rfl, rfl, rfl, rfl⟩, fun o r => dispatchable_iff, fun a => ⟨readyForOrder_iff,
    fun o r hready hfirst h => ?dispatch, dispatch_waits, fun o r hc hst => ⟨fun hout hhall => ?handOff, fun hn => ?holding⟩,
    resumeHolding_of_not_holding, ⟨resumeTakeOn_of_held, resumeTakeOn_waits⟩, ?park, quietPark_of_not_parks⟩,
    tryQuiet_waits, tryAuditEnd_waits⟩
  case dispatch =>
    intro t first
    have ht : t = s.startOrder a o := dispatch_starts hready hfirst
    rw [ht]
    exact ⟨(order?_startOrder h o).trans (if_pos rfl), fun o' ho' => (order?_startOrder h o').trans (if_neg (Ne.symm ho')),
      queue_startOrder h, (shuttle_startOrder h a).trans (if_pos rfl), (slot_startOrder h a).trans (if_pos rfl),
      fun a' ha' => ⟨(shuttle_startOrder h a').trans (if_neg (Ne.symm ha')),
        (slot_startOrder h a').trans (if_neg (Ne.symm ha'))⟩, tab_startOrder h⟩
  case handOff => exact resumeHolding_of_may hc hst (mayHandOff_iff.2 ⟨hout, hhall⟩)
  case holding =>
    refine resumeHolding_of_not_may (Bool.eq_false_iff.2 fun hmay => ?_)
    obtain ⟨hout, hhall⟩ := mayHandOff_iff.1 hmay
    exact hn.elim (· hout) (· hhall)
  case park =>
    intro (hparks : s.ParksQuietly a)
    refine ⟨(shuttle_quietPark hparks a).trans (if_pos rfl), (slot_quietPark hparks a).trans (if_pos rfl),
      fun a' ha' => ⟨(shuttle_quietPark hparks a').trans (if_neg (Ne.symm ha')),
        (slot_quietPark hparks a').trans (if_neg (Ne.symm ha'))⟩, ?_, ?_⟩
    · rw [quietPark_of_parks hparks]; rfl
    · rw [quietPark_of_parks hparks]; rfl

end Sys2Proof.Machine
end

section
/-! The freed entry's offer to the claims, COLLECT and READ ORDER (R41, R44, R45, R60, R61). -/
namespace Sys2Proof.Machine

variable {s : State} {e : OrderNo} {r : Order} {b : BinNo} {p : Position}

/-! ## The lowest entry (R41, R44) -/

theorem orderNumbers_eq : orderNumbers = List.finRange 32 := rfl

theorem freeEntry?_eq_some : s.freeEntry? = some e ↔ s.order? e = none ∧ ∀ e', e' < e → s.order? e' ≠ none := by
  rw [State.freeEntry?, orderNumbers_eq, ← Fin.find?_eq_find?_finRange, Fin.find?_eq_some_iff, Option.isNone_iff_eq_none]
  simp only [Option.isNone_eq_false_iff, Option.isSome_iff_ne_none]

theorem freeEntry?_eq_none : s.freeEntry? = none ↔ ∀ e', s.order? e' ≠ none := by
  rw [State.freeEntry?, orderNumbers_eq, ← Fin.find?_eq_find?_finRange, Fin.find?_eq_none_iff]
  simp only [Option.isNone_eq_false_iff, Option.isSome_iff_ne_none]

/-- An entry with its order and outcome, if it is FINISHED. -/
def State.finished? (s : State) (o : OrderNo) : Option (OrderNo × Order × Outcome) :=
  match s.order? o with
  | some r =>
    match r.stage with
    | .finished out => some (o, r, out)
    | _ => none
  | none => none

theorem firstFinished?_eq (s : State) : s.firstFinished? = Fin.findSome? s.finished? :=
  (Fin.findSome?_eq_findSome?_finRange s.finished?).symm

theorem finished?_of_finished {out : Outcome} (h : s.order? e = some r) (hr : r.stage = .finished out) :
    s.finished? e = some (e, r, out) := by
  simp only [State.finished?, h, hr]

theorem finished?_of_unfinished (h : ∀ r, s.order? e = some r → r.isFinished = false) : s.finished? e = none := by
  unfold State.finished?
  cases hr : s.order? e with
  | none => rfl
  | some r =>
    have hunfinished := h r hr
    cases hst : r.stage with
    | finished out => simp [Order.isFinished, hst] at hunfinished
    | run st => simp only [hst]
    | halted x => simp only [hst]

/-! ## The claims in order (R60, R61) -/

theorem rank_mem (c : Claim) : c.rank ∈ claimRanks := by
  cases c with
  | restore a x => exact (by decide : ∀ a : Aisle, a.val ∈ claimRanks) a
  | dismissal q => cases q <;> decide
  | fetch q => cases q <;> decide
  | audit x => exact (by decide : 10 ∈ claimRanks)

theorem claim_of_find {k : Nat} {c : Claim} (h : s.ou.claims.find? (·.rank == k) = some c) :
    c.rank = k ∧ c ∈ s.ou.claims :=
  ⟨by simpa using List.find?_some h, List.mem_of_find?_eq_some h⟩

theorem claimsInOrder_pairwise (s : State) : s.claimsInOrder.Pairwise fun c d => c.rank < d.rank := by
  refine List.pairwise_filterMap.2 ((by decide : claimRanks.Pairwise (· < ·)).imp fun hlt c hc d hd => ?_)
  rw [(claim_of_find hc).1, (claim_of_find hd).1]
  exact hlt

theorem mem_claims_of_mem_claimsInOrder {c : Claim} (h : c ∈ s.claimsInOrder) : c ∈ s.ou.claims := by
  obtain ⟨k, -, hk⟩ := List.mem_filterMap.1 h
  exact (claim_of_find hk).2

/-- Every claimant of the list has its turn. -/
theorem exists_claimsInOrder {c : Claim} (h : c ∈ s.ou.claims) : ∃ d ∈ s.claimsInOrder, d.rank = c.rank := by
  have hsome : (s.ou.claims.find? (·.rank == c.rank)).isSome := List.find?_isSome.2 ⟨c, h, beq_self_eq_true c.rank⟩
  obtain ⟨d, hd⟩ := Option.isSome_iff_exists.1 hsome
  exact ⟨d, List.mem_filterMap.2 ⟨c.rank, rank_mem c, hd⟩, (claim_of_find hd).1⟩

theorem claims_withdrawClaims (s : State) (k : Nat) : (s.withdrawClaims [k]).claims k = false := by
  rw [State.claims, List.any_eq_false]
  intro c hc
  simpa using (List.mem_filter.1 hc).2

theorem ou_placeOrder_claims (e : OrderNo) (q : Order) : (s.placeOrder e q).ou.claims = s.ou.claims := by
  obtain ⟨v, hv⟩ := placeOrder_frame (s := s) e q
  rw [hv]
  rfl

theorem ou_placeOrder_quiet (e : OrderNo) (q : Order) : (s.placeOrder e q).ou.quiet = s.ou.quiet := by
  obtain ⟨v, hv⟩ := placeOrder_frame (s := s) e q
  rw [hv]
  rfl

theorem ou_placeOrder_auditCount (e : OrderNo) (q : Order) : (s.placeOrder e q).ou.auditCount = s.ou.auditCount := by
  obtain ⟨v, hv⟩ := placeOrder_frame (s := s) e q
  rw [hv]
  rfl

/-! ## The claims' uses of an entry -/

theorem offerAll_taken {c : Claim} {rest : List Claim} (h : (s.offer e c).1 = true) :
    s.offerAll e (c :: rest) = (s.offer e c).2 := by
  rw [State.offerAll]
  split
  · rename_i heq; rw [heq]
  · rename_i heq; rw [heq] at h; cases h

theorem offerAll_passed {c : Claim} {rest : List Claim} (h : (s.offer e c).1 = false) :
    s.offerAll e (c :: rest) = (s.offer e c).2.offerAll e rest := by
  rw [State.offerAll]
  split
  · rename_i heq; rw [heq] at h; cases h
  · rename_i heq; rw [heq]

theorem homeAisle_wakeByNeed (b : BinNo) : s.wakeByNeed.homeAisle b = s.homeAisle b := by
  obtain ⟨q, v, l, h⟩ := wakeByNeed_frame s
  rw [h]
  rfl

/-- What is left of a need that woke the wing: its quiet state and WOKEN (R67). -/
theorem woken_of_wakeByNeed {t : State} (hquiet : t.ou.quiet = s.wakeByNeed.ou.quiet) (hau : t.au = s.wakeByNeed.au) :
    (s.ou.quiet = .quiet → t.ou.quiet = .active ∧ t.pendingCause .woken = true)
      ∧ (s.ou.quiet ≠ .quiet → t.ou.quiet = s.ou.quiet) := by
  refine ⟨fun h => ?_, fun h => by rw [hquiet, wakeByNeed_of_not_quiet h]⟩
  obtain ⟨hactive, hwoken⟩ := wakeByNeed_wakes h
  exact ⟨hquiet.trans hactive, latchSet_of_au hau hwoken⟩

/-! ### Dismissals (R131) -/

/-- The STOW that sends a position's bin home (R131). -/
def State.homewardStow (s : State) (b : BinNo) : Order :=
  plainOrder .stow .returnStation b (s.homeAisle b) 2 .waitingLane none

theorem order?_dismissInto (e : OrderNo) (p : Position) (b : BinNo) : (s.dismissInto e p b).order? e = some (s.homewardStow b) :=
  (order?_placeOrder s e e (s.homewardStow b)).trans (if_pos rfl)

theorem position_dismissInto (e : OrderNo) (p : Position) (b : BinNo) : (s.dismissInto e p b).position p = .empty := by
  cases p <;> rfl

theorem stationOut_dismissInto (e : OrderNo) (p : Position) (b : BinNo) :
    (s.dismissInto e p b).stationOut returnStation = some b := by
  have h := stationOut_setStationOut (s.placeOrder e (s.homewardStow b)) returnStation returnStation (some b)
  rw [if_pos rfl] at h
  cases p <;> exact h

theorem dismissalMark_dismissInto (e : OrderNo) (p : Position) (b : BinNo) : (s.dismissInto e p b).dismissalMark p = false :=
  claims_withdrawClaims _ _

theorem quiet_dismissInto (e : OrderNo) (p : Position) (b : BinNo) : (s.dismissInto e p b).ou.quiet = s.ou.quiet :=
  ou_placeOrder_quiet e (s.homewardStow b)

theorem au_dismissInto (e : OrderNo) (p : Position) (b : BinNo) : (s.dismissInto e p b).au = s.au :=
  au_placeOrder s e (s.homewardStow b)

theorem mayDismiss_iff : s.mayDismiss = true ↔
    (∀ x, s.stationState returnStation ≠ .fireHeld x) ∧ s.stationOut returnStation = none := by
  rw [State.mayDismiss, State.returnState, Bool.and_eq_true, Option.isNone_iff_eq_none]
  cases s.stationState returnStation <;> simp [StationState.isFireHeld]

theorem offer_dismissal_taken (hp : s.position p = .fullWaiting b) (hmay : s.mayDismiss = true) :
    s.offer e (.dismissal p) = (true, s.wakeByNeed.dismissInto e p b) := by
  simp only [State.offer, State.offerDismissal, hp, hmay, if_true]

theorem offer_dismissal_passed (hp : s.position p = .fullWaiting b) (hout : (s.stationOut returnStation).isSome = true) :
    s.offer e (.dismissal p) = (false, s) := by
  have hmay : s.mayDismiss = false :=
    Bool.eq_false_iff.2 fun h => by rw [(mayDismiss_iff.1 h).2] at hout; cases hout
  simp only [State.offer, State.offerDismissal, hp, hmay, Bool.false_eq_true, if_false]

/-! ### Fetch claims (R18, R129) -/

/-- The FETCH that calls a pool's bin to a position (R47, R129). -/
def State.callingFetch (s : State) (p : Position) (b : BinNo) : Order :=
  plainOrder .fetch .returnStation b (s.homeAisle b) 2 .queued (some (.ret p))

theorem order?_callBin (e : OrderNo) (p : Position) (b : BinNo) : (s.callBin e p b).order? e = some (s.callingFetch p b) :=
  (order?_placeOrder s e e (s.callingFetch p b)).trans (if_pos rfl)

theorem position_callBin (e : OrderNo) (p : Position) (b : BinNo) : (s.callBin e p b).position p = .arriving e := by
  cases p <;> rfl

theorem fetchMark_callBin (e : OrderNo) (p : Position) (b : BinNo) : (s.callBin e p b).fetchMark p = false :=
  claims_withdrawClaims _ _

theorem quiet_callBin (e : OrderNo) (p : Position) (b : BinNo) : (s.callBin e p b).ou.quiet = s.ou.quiet :=
  ou_placeOrder_quiet e (s.callingFetch p b)

theorem au_callBin (e : OrderNo) (p : Position) (b : BinNo) : (s.callBin e p b).au = s.au :=
  au_placeOrder s e (s.callingFetch p b)

theorem offer_fetch_taken (h : s.poolFirst? p = some b) : s.offer e (.fetch p) = (true, s.wakeByNeed.callBin e p b) := by
  simp only [State.offer, State.offerFetch, h]

theorem offer_fetch_wanting (h : s.poolFirst? p = none) : s.offer e (.fetch p) = (false, s.enterWanting p) := by
  simp only [State.offer, State.offerFetch, h]

theorem position_enterWanting (p : Position) : (s.enterWanting p).position p = .wanting := by cases p <;> rfl

theorem fetchMark_enterWanting (p : Position) : (s.enterWanting p).fetchMark p = false := claims_withdrawClaims _ _

theorem enterWanting_latches (p : Position) : (s.enterWanting p).pendingCause .intakeExhausted = true :=
  latchSet_latch_self (s := (s.setPosition p .wanting).withdrawClaims [(Claim.fetch p).rank]) .intakeExhausted

/-! ### The audit cursor's claim (R62) -/

theorem makeAuditProbe_reads (s : State) (e : OrderNo) (b : BinNo) : (s.makeAuditProbe e b).order? e =
      some { kind := .probe, source := .audit, bin := b, aisle := s.homeAisle b, priority := 0, stage := .run .queued
             dest := none, cancel := false, pendingOutcome := none }
    ∧ (s.makeAuditProbe e b).ou.auditCount = s.ou.auditCount + 1 ∧ (s.makeAuditProbe e b).ou.cursor = some (b.val + 1) :=
  ⟨(order?_placeOrder s e e _).trans (if_pos rfl), congrArg (· + 1) (ou_placeOrder_auditCount e _), rfl⟩

section
variable (hquiet : s.ou.quiet = .active)
include hquiet

theorem offer_audit_taken (h : s.auditable b = true) :
    s.offer e (.audit b) = (true, (s.withdrawClaims [10]).makeAuditProbe e b) := by
  simp only [State.offer, State.offerAudit, hquiet, ne_eq, not_true_eq_false, if_false, h, if_true]
  rfl

theorem offer_audit_passed (h : s.auditable b = false) :
    s.offer e (.audit b) = (false, (s.withdrawClaims [10]).passAudit b) := by
  simp only [State.offer, State.offerAudit, hquiet, ne_eq, not_true_eq_false, h, Bool.false_eq_true, if_false]
  rfl

end

theorem offer_audit_quiet (hquiet : s.ou.quiet ≠ .active) : s.offer e (.audit b) = (false, s.withdrawClaims [10]) := by
  simp only [State.offer, State.offerAudit, ne_eq, hquiet, not_false_eq_true, if_true]
  rfl

/-- However it is answered, the cursor's claim leaves the list. -/
theorem offer_audit_leaves : (s.offer e (.audit b)).2.claims 10 = false := by
  by_cases hquiet : s.ou.quiet = .active
  · cases h : s.auditable b with
    | true =>
      rw [offer_audit_taken hquiet h]
      refine Eq.trans ?_ (claims_withdrawClaims s 10)
      exact congrArg (List.any · _) (ou_placeOrder_claims (s := s.withdrawClaims [10]) e _)
    | false =>
      rw [offer_audit_passed hquiet h]
      exact claims_withdrawClaims s 10
  · rw [offer_audit_quiet hquiet]
    exact claims_withdrawClaims s 10

/-- Settles O16: the order of the claims, then what each claimant makes of the entry. -/
theorem freedEntryIsOfferedInOrder : Obligations.FreedEntryIsOfferedInOrder := by
  refine fun s e => ⟨freeEntry?_eq_some, freeEntry?_eq_none, fun c rest => offerAll_taken, fun c rest => offerAll_passed, rfl,
    rfl, claimsInOrder_pairwise s, fun c => mem_claims_of_mem_claimsInOrder, fun c => exists_claimsInOrder,
    fun a b => ⟨rfl, rfl⟩, rfl, rfl, rfl, rfl, fun a b => ?restore, fun p b hp hout hheld => ?dismissal,
    fun p b => offer_dismissal_passed, fun p h => ?wanting, fun p b h => ?fetch, fun b => offer_audit_leaves,
    fun b hquiet h => ?audit, fun b hquiet h => ?pass, fun b hquiet => ?wait⟩
  case restore =>
    refine ⟨rfl, (order?_placeOrder _ e e _).trans (if_pos rfl), ?_⟩
    refine Eq.trans ?_ (claims_withdrawClaims s a.val)
    exact congrArg (List.any · _) (ou_placeOrder_claims (s := s.withdrawClaims [a.val]) e _)
  case dismissal =>
    have hoffer := offer_dismissal_taken (e := e) hp (mayDismiss_iff.2 ⟨hheld, hout⟩)
    obtain ⟨hwakes, hstays⟩ := woken_of_wakeByNeed (s := s) (quiet_dismissInto e p b) (au_dismissInto e p b)
    have horder := order?_dismissInto (s := s.wakeByNeed) e p b
    rw [State.homewardStow, homeAisle_wakeByNeed] at horder
    rw [hoffer]
    exact ⟨rfl, horder, position_dismissInto e p b, stationOut_dismissInto e p b, dismissalMark_dismissInto e p b, hwakes, hstays⟩
  case wanting =>
    rw [offer_fetch_wanting h]
    exact ⟨rfl, position_enterWanting p, fetchMark_enterWanting p, enterWanting_latches p, rfl⟩
  case fetch =>
    obtain ⟨hwakes, hstays⟩ := woken_of_wakeByNeed (s := s) (quiet_callBin e p b) (au_callBin e p b)
    have horder := order?_callBin (s := s.wakeByNeed) e p b
    rw [State.callingFetch, homeAisle_wakeByNeed] at horder
    rw [offer_fetch_taken h]
    exact ⟨rfl, horder, position_callBin e p b, fetchMark_callBin e p b, hwakes, hstays⟩
  case audit =>
    rw [offer_audit_taken hquiet h]
    exact ⟨rfl, makeAuditProbe_reads (s.withdrawClaims [10]) e b⟩
  case pass =>
    rw [offer_audit_passed hquiet h]
    exact ⟨rfl, rfl⟩
  case wait =>
    rw [offer_audit_quiet hquiet]
    exact ⟨rfl, rfl⟩

end Sys2Proof.Machine
end

section
/-! COLLECT and READ ORDER (R44, R45). -/
namespace Sys2Proof.Machine

variable {s : State} {e : OrderNo} {r : Order}

/-! ## Requests on an order -/

section
variable {o : Operands} {f : OrderNo → Order → State → Reply}

theorem onOrder_bad (h : 31 < o.cell 0) : onOrder f o s = .refuse .badOperand := by
  simp only [onOrder, index?_of_le (Nat.succ_le_of_lt h)]

theorem onOrder_none (h : o.cell 0 = e.val) (hr : s.order? e = none) : onOrder f o s = .refuse .noRecord := by
  simp only [onOrder, index?_of_eq h, hr]

theorem onOrder_some (h : o.cell 0 = e.val) (hr : s.order? e = some r) : onOrder f o s = f e r s := by
  simp only [onOrder, index?_of_eq h, hr]

end

@[simp] theorem order?_storeRequest (code : Word) (e : OrderNo) : (s.storeRequest code).order? e = s.order? e := rfl

/-! ## COLLECT (R44) -/

theorem freeAndOffer_of_no_claims (h : s.ou.claims = []) : s.freeAndOffer e = s.freeOrder e := by
  have hnone : (s.freeOrder e).claimsInOrder = [] := by
    refine List.filterMap_eq_nil_iff.2 fun k _ => ?_
    exact congrArg (List.find? _) h
  simp only [State.freeAndOffer, hnone, State.offerAll]

section
variable (hw : s.windowFree = true)
include hw

theorem exec_collect_none (h : ∀ e r, s.order? e = some r → r.isFinished = false) :
    exec .collect s = .next (s.requestDone 0x21 .nothingFinished {}) := by
  have hnone : (s.storeRequest 0x21).firstFinished? = none := by
    rw [firstFinished?_eq, Fin.findSome?_eq_none_iff]
    exact fun e => finished?_of_unfinished (h e)
  exact next_refused (e := collect) hw (by simp only [collect, hnone])

theorem exec_collect {out : Outcome} (hr : s.order? e = some r) (hst : r.stage = .finished out)
    (hfirst : ∀ e' r', e' < e → s.order? e' = some r' → r'.isFinished = false) :
    exec .collect s = .next ((((s.storeRequest 0x21).freeAndOffer e).settle).endRequest .ok
      { a0 := word e.val, a1 := bytePair r.kind.code r.source.code, a2 := word r.bin.val, a3 := word out.code }) := by
  have hsome : (s.storeRequest 0x21).firstFinished? = some (e, r, out) := by
    rw [firstFinished?_eq, Fin.findSome?_eq_some_iff]
    exact ⟨e, finished?_of_finished hr hst, fun e' he' => finished?_of_unfinished (hfirst e' · he')⟩
  exact next_answered (e := collect) hw (by simp only [collect, hsome]; rfl)

/-! ## READ ORDER (R45) -/

theorem exec_readOrder (h : s.operands.cell 0 = e.val) (hr : s.order? e = some r) :
    exec .readOrder s = .next (s.requestDone 0x22 .ok r.answer) :=
  next_answered (e := readOrder) (t := s.storeRequest 0x22) hw (onOrder_some h hr)

end

theorem flagCode_mul (f : Bool) (n : Nat) : flagCode f * n = if f then n else 0 := by
  cases f <;> simp [flagCode]

theorem destField_eq (d : Option Dest) : byteOrNone (d.map Dest.code) = match d with | some d => d.code | none => 0xFF := by
  cases d <;> rfl

/-- Settles O15: the lowest FINISHED entry, and the fields of an entry. -/
theorem finishedOrdersAreCollected : Obligations.FinishedOrdersAreCollected := by
  refine fun s hw => ⟨exec_collect_none hw, fun e r out hr hst hfirst => ⟨exec_collect hw hr hst hfirst,
    freeAndOffer_of_no_claims, (order?_freeOrder s e e).trans (if_pos rfl)⟩, fun h => next_refused hw (onOrder_bad h),
    fun e h hr => next_refused hw (onOrder_none h hr), fun e r h hr => (exec_readOrder hw h hr).trans ?_⟩
  rw [Order.answer, flagCode_mul, destField_eq]
  rfl

end Sys2Proof.Machine
end

section
/-! CANCEL ORDER (R55, R56). -/
namespace Sys2Proof.Machine

variable {s : State} {n : OrderNo} {r : Order}

/-! ## The reply by the order's stage -/

section
variable {o : Operands} (h : o.cell 0 = n.val) (hr : s.order? n = some r)
include h hr

theorem cancelOrder_finished {out : Outcome} (hst : r.stage = .finished out) : cancelOrder o s = .refuse .wrongStage :=
  (onOrder_some h hr).trans (by simp only [hst])

theorem cancelOrder_halted {x : Restart} (hst : r.stage = .halted x) :
    cancelOrder o s = .answer .ok {} (s.finishOrder n .cancelled).settle :=
  (onOrder_some h hr).trans (by simp only [hst])

theorem cancelOrder_fetch {st : RunStage} (hst : r.stage = .run st) (hk : r.kind = .fetch) :
    cancelOrder o s = s.cancelRunning n r st :=
  (onOrder_some h hr).trans (by simp only [hst, hk, if_true])

theorem cancelOrder_other {st : RunStage} (hst : r.stage = .run st) (hk : r.kind ≠ .fetch) :
    cancelOrder o s = .refuse .wrongStage :=
  (onOrder_some h hr).trans (by simp only [hst, hk, if_false])

/-- A FETCH past its HAND_OFF is not cancelled (R55). -/
theorem cancelOrder_running_refused {st : RunStage} (hst : r.stage = .run st)
    (hno : r.kind ≠ .fetch ∨ st = .handing ∨ st = .waitingLane ∨ st = .crossing) : cancelOrder o s = .refuse .wrongStage := by
  by_cases hk : r.kind = .fetch
  · rw [cancelOrder_fetch h hr hst hk]
    rcases hno with hno | rfl | rfl | rfl
    · exact absurd hk hno
    · rfl
    · rfl
    · rfl
  · exact cancelOrder_other h hr hst hk

/-- A FETCH on its way in the aisle takes the cancel mark (R55). -/
theorem cancelOrder_marked (hk : r.kind = .fetch) (hst : r.stage = .run .seeking ∨ r.stage = .run .lifting
    ∨ r.stage = .run .carrying ∨ r.stage = .run .returning ∨ r.stage = .run .lowering) :
    cancelOrder o s = .answer .cancelTaken {} (s.putOrder n { r with cancel := true }) := by
  rcases hst with hst | hst | hst | hst | hst
  all_goals
    rw [cancelOrder_fetch h hr hst hk]
    rfl

end

/-- Settles O17: CANCEL ORDER by the stage, then by the kind. -/
theorem cancelActsByStage : Obligations.CancelActsByStage := by
  refine fun s hw => ⟨fun h => next_refused hw (onOrder_bad h), fun o h => ⟨fun hr => next_refused hw (onOrder_none h hr),
    fun r hr => ⟨fun out hst => ?finished, fun x hst => ?halted, fun hk hst => ⟨?queued, fun rec hb => ?bin⟩,
      fun hk hst => ?marked, fun hk hst => ?holding, fun st hst hno => ?refused⟩⟩⟩
  case finished => exact next_refused hw (cancelOrder_finished h hr hst)
  case halted => exact next_answered hw (cancelOrder_halted (s := s.storeRequest 0x23) h hr hst)
  case queued => exact next_answered hw (cancelOrder_fetch (s := s.storeRequest 0x23) h hr hst hk)
  case bin => exact binRec?_finishOrder_self (s := s.setPlace r.bin .home) hr .cancelled (binRec?_setPlace_self hb .home)
  case marked => exact next_answered hw (cancelOrder_marked (s := s.storeRequest 0x23) h hr hk hst)
  case holding => exact next_answered hw (cancelOrder_fetch (s := s.storeRequest 0x23) h hr hst hk)
  case refused => exact next_refused hw (cancelOrder_running_refused h hr hst hno)

end Sys2Proof.Machine
end

section
/-! The audit sweep (R62, R63). -/
namespace Sys2Proof.Machine

variable {s : State} {b : BinNo}

/-! ## AUDIT and CANCEL AUDIT (R62, R63) -/

theorem withdrawClaims_singleton (k : Nat) :
    s.withdrawClaims [k] = { s with ou.claims := s.ou.claims.filter fun c => !decide (c.rank = k) } := by
  simp only [State.withdrawClaims, List.contains_cons, List.contains_nil, Bool.or_false, beq_eq_decide]

/-- A request with one check, a flag of the state. -/
theorem judged_of_flag {i : Instr} {code : Word} {e : Evaluation} {p : Bool} {refusal c : Code} {a : Answer} {t : State}
    (hi : exec i s = .next (s.takeRequest code e)) (hw : s.windowFree = true)
    (hok : p = true → e s.operands (s.storeRequest code) = .answer c a t)
    (hno : p = false → e s.operands (s.storeRequest code) = .refuse refusal) :
    Judged s i code [(p, refusal)] (t.endRequest c a) := by
  have h := judged_of_check (p := p = true) hi hw hok fun hp => hno (Bool.eq_false_iff.2 hp)
  rwa [Bool.decide_eq_true] at h

section
variable (hw : s.windowFree = true)
include hw

theorem judged_audit : Judged s .audit 0x25 [(!s.ou.sweep, .auditRunning)]
    (State.requestDone 0x25 .ok {} { s with ou.sweep := true, ou.cursor := some 0 }) := by
  refine judged_of_flag (e := audit) (t := { s.storeRequest 0x25 with ou.sweep := true, ou.cursor := some 0 }) rfl hw
    (fun hp => if_neg ?_) fun hp => if_pos ?_
  · simpa using hp
  · simpa using hp

theorem judged_cancelAudit : Judged s .cancelAudit 0x26 [(s.ou.sweep, .wrongState)]
    (State.requestDone 0x26 .ok {} { s with
      ou.sweep := false, ou.cursor := none, ou.claims := s.ou.claims.filter fun c => !decide (c.rank = 10) }) := by
  refine judged_of_flag (e := cancelAudit) (t := { s.storeRequest 0x26 with
    ou.sweep := false, ou.cursor := none, ou.claims := s.ou.claims.filter fun c => !decide (c.rank = 10) }) rfl hw
    (fun hp => (if_pos hp).trans ?_) fun hp => if_neg (Bool.eq_false_iff.1 hp)
  rw [State.stopSweep, show (Claim.audit 0).rank = 10 from rfl, withdrawClaims_singleton]
  rfl

end

/-! ## The cursor's walk (R62) -/

theorem whenRunning_of_running (hp : s.phase = .running) (f : State → State) : s.whenRunning f = f s := by
  simp only [State.whenRunning, hp]

theorem exec_auditCursorStep (hp : s.phase = .running) : exec .auditCursorStep s = .next s.stepCursor :=
  congrArg _ (whenRunning_of_running hp State.stepCursor)

theorem stepCursor_stays (h : s.ou.sweep = false ∨ s.claims 10 = true) : s.stepCursor = s := by
  refine if_neg fun hrun => ?_
  rw [Bool.and_eq_true, Bool.not_eq_true'] at hrun
  rcases h with h | h
  · exact Bool.noConfusion (h.symm.trans hrun.1)
  · exact Bool.noConfusion (h.symm.trans hrun.2)

section
variable (hsweep : s.ou.sweep = true) (hclaims : s.claims 10 = false)
include hsweep hclaims

theorem cursorRuns : (s.ou.sweep && !s.claims (Claim.audit 0).rank) = true := by
  rw [hsweep, show s.claims (Claim.audit 0).rank = false from hclaims]
  rfl

theorem stepCursor_at (hcursor : s.ou.cursor = some b.val) : s.stepCursor = s.auditAt b := by
  have hbin : bin? b.val = some b := index?_val b
  simp only [State.stepCursor, cursorRuns hsweep hclaims, if_true, hcursor, hbin]

theorem stepCursor_end (hcursor : s.ou.cursor = some 2048) : s.stepCursor = s.settle := by
  have hbin : bin? 2048 = none := index?_of_le (Nat.le_refl 2048)
  simp only [State.stepCursor, cursorRuns hsweep hclaims, if_true, hcursor, hbin]

end

theorem auditAt_passes (h : s.auditable b = false) : s.auditAt b = (s.passAudit b).settle := by
  simp only [State.auditAt, h, Bool.false_eq_true, if_false]

section
variable (h : s.auditable b = true)
include h

theorem auditAt_waits (hwait : 4 ≤ s.ou.auditCount ∨ s.ou.quiet ≠ .active) : s.auditAt b = s := by
  rw [State.auditAt, if_pos h, State.auditQualifying, if_pos hwait]

variable (hcount : s.ou.auditCount < 4) (hquiet : s.ou.quiet = .active)
include hcount hquiet

theorem auditAt_claims (he : s.freeEntry? = none) : s.auditAt b = s.fileClaim (.audit b) := by
  have hgo : ¬ (4 ≤ s.ou.auditCount ∨ s.ou.quiet ≠ .active) := by simp [hcount, hquiet]
  rw [State.auditAt, if_pos h, State.auditQualifying, if_neg hgo, he]

theorem auditAt_probes {e : OrderNo} (he : s.freeEntry? = some e) : s.auditAt b = (s.makeAuditProbe e b).settle := by
  have hgo : ¬ (4 ≤ s.ou.auditCount ∨ s.ou.quiet ≠ .active) := by simp [hcount, hquiet]
  rw [State.auditAt, if_pos h, State.auditQualifying, if_neg hgo, he]

end

theorem auditable_iff : s.auditable b = true ↔ ∃ r, s.binRec? b = some r ∧ r.place = .unverified ∧ r.holder = none
    ∧ s.zoneState (zoneOf (s.homeAisle b)) = .normal := by
  unfold State.auditable
  cases s.binRec? b with
  | none => simp
  | some r => simp [State.homeNormal, State.aisleNormal, zoneNormal_iff, and_assoc]

/-! ## The end of the sweep (R63) -/

theorem tryAuditEnd_ends (hsweep : s.ou.sweep = true) (hcursor : s.ou.cursor = some 2048) (hcount : s.ou.auditCount = 0) :
    s.tryAuditEnd = State.latch .auditDone { s with ou.sweep := false, ou.cursor := none } :=
  if_pos ⟨hsweep, hcursor, hcount⟩

/-- Settles O19: the two requests, the cursor's step by where it stands, and the end of the sweep. -/
theorem auditSweepWalksTheBins : Obligations.AuditSweepWalksTheBins := by
  refine fun s => ⟨fun hw => ⟨judged_audit hw, judged_cancelAudit hw⟩, fun hp => ?_, fun b => auditable_iff,
    fun hsweep hcursor hcount => ?ends⟩
  case ends =>
    rw [tryAuditEnd_ends hsweep hcursor hcount]
    exact ⟨rfl, rfl, latchSet_latch_self (s := { s with ou.sweep := false, ou.cursor := none }) .auditDone⟩
  rw [exec_auditCursorStep hp]
  refine ⟨fun h => congrArg _ (stepCursor_stays h), fun hsweep hclaims => ⟨fun b hcursor => ?_,
    fun hcursor => congrArg _ (stepCursor_end hsweep hclaims hcursor)⟩⟩
  rw [stepCursor_at hsweep hclaims hcursor]
  exact ⟨fun h => congrArg _ (auditAt_passes h), fun h hwait => congrArg _ (auditAt_waits h hwait), fun h hcount hquiet =>
    ⟨fun he => congrArg _ (auditAt_claims h hcount hquiet he), fun e he =>
      ⟨congrArg _ (auditAt_probes h hcount hquiet he), makeAuditProbe_reads s e b⟩⟩⟩

end Sys2Proof.Machine
end

section
/-! Quiet running: QUIESCE, WAKE, and the moves to QUIET and to ACTIVE (R65 to R67). -/
namespace Sys2Proof.Machine

variable {s : State}

/-! ## QUIESCE and WAKE -/

section
variable (hw : s.windowFree = true)
include hw

theorem exec_quiesce_active (h : s.ou.quiet = .active) : exec .quiesce s =
    .next ((State.settle { s.storeRequest 0x28 with ou.quiet := .quiescing }).endRequest .ok {}) :=
  next_answered (e := quiesce) hw (if_pos h)

theorem exec_quiesce_again (h : s.ou.quiet ≠ .active) : exec .quiesce s = .next (s.requestDone 0x28 .ok {}) :=
  next_answered (e := quiesce) (t := s.storeRequest 0x28) hw (if_neg h)

theorem exec_wake_quiet (h : s.ou.quiet ≠ .active) :
    exec .wake s = .next ((((s.storeRequest 0x29).becomeActive).settle).endRequest .ok {}) :=
  next_answered (e := wake) hw (if_neg h)

theorem exec_wake_active (h : s.ou.quiet = .active) : exec .wake s = .next (s.requestDone 0x29 .ok {}) :=
  next_answered (e := wake) (t := s.storeRequest 0x29) hw (if_pos h)

end

/-! ## The conditions of QUIET (R66) -/

theorem atRest_iff (st : ShuttleState) :
    st.atRest = true ↔ st = .parked ∨ st = .offline ∨ st = .faulted ∨ st = .caught := by
  cases st <;> simp [ShuttleState.atRest]

theorem unfinished_eq_false {e : OrderNo} : s.unfinished e = false ↔ ∀ r, s.order? e = some r → r.isFinished = true := by
  unfold State.unfinished
  cases s.order? e <;> simp

theorem atQuiet_iff : s.atQuiet = true ↔ (∀ e r, s.order? e = some r → r.isFinished = true)
    ∧ (∀ a, (s.shuttle a).state = .parked ∨ (s.shuttle a).state = .offline ∨ (s.shuttle a).state = .faulted
        ∨ (s.shuttle a).state = .caught) ∧ s.lc.crossing = none := by
  have horders : orderNumbers.all (fun e => !s.unfinished e) = true ↔ ∀ e r, s.order? e = some r → r.isFinished = true := by
    simp only [List.all_eq_true, mem_orderNumbers, forall_const, Bool.not_eq_true', unfinished_eq_false]
  have hshuttles : aisles.all (fun a => (s.shuttle a).state.atRest) = true ↔ ∀ a, (s.shuttle a).state = .parked
      ∨ (s.shuttle a).state = .offline ∨ (s.shuttle a).state = .faulted ∨ (s.shuttle a).state = .caught := by
    simp only [List.all_eq_true, mem_aisles, forall_const, atRest_iff]
  rw [State.atQuiet, Bool.and_eq_true, Bool.and_eq_true, horders, hshuttles, Option.isNone_iff_eq_none, and_assoc]

theorem tryQuiet_becomes (h : s.ou.quiet = .quiescing) (hat : s.atQuiet = true) :
    s.tryQuiet = State.latch .quietEntered { s with ou.quiet := .quiet } := if_pos ⟨h, hat⟩

/-! ## The move to ACTIVE (R67) -/

theorem quiet_becomeActive (s : State) : s.becomeActive.ou.quiet = .active := by
  obtain ⟨v, hv⟩ := becomeActive_frame s
  rw [hv]

theorem state_becomeActive (s : State) (a : Aisle) : (s.becomeActive.shuttle a).state =
    if (s.shuttle a).state = .parked ∧ s.zoneState (zoneOf a) = .normal then .idle else (s.shuttle a).state := by
  have hzone : s.aisleNormal a = true ↔ s.zoneState (zoneOf a) = .normal := zoneNormal_iff
  simp only [shuttle_becomeActive, Shuttle.unparked, hzone]
  split
  · rfl
  · rfl

/-- Settles O20: the two requests, and the two moves. -/
theorem quietRunningStartsAndEnds : Obligations.QuietRunningStartsAndEnds := by
  refine fun s => ⟨fun hw => ⟨exec_quiesce_active hw, exec_quiesce_again hw, exec_wake_quiet hw, exec_wake_active hw⟩,
    atQuiet_iff, fun h hat => ?_, quiet_becomeActive s, state_becomeActive s, wakeByNeed_of_quiet, wakeByNeed_of_not_quiet⟩
  rw [tryQuiet_becomes h hat]
  exact ⟨rfl, latchSet_latch_self (s := { s with ou.quiet := .quiet }) .quietEntered⟩

end Sys2Proof.Machine
end

section
/-! Silences and overruns: what stops a shuttle, and the ends of limited exchanges (R76, R77, R82, R83, R85). -/
namespace Sys2Proof.Machine

variable {s : State} {a : Aisle} {o : OrderNo} {r : Order}

/-! ## The current order and a capture, read from the entries and the shuttle's record -/

theorem currentOrder?_congr {t : State} (horder : (t.shuttle a).order = (s.shuttle a).order)
    (hentries : t.ou.orders = s.ou.orders) : t.currentOrder? a = s.currentOrder? a := by
  simp only [currentOrder?_eq, horder, State.order?, hentries]

theorem shuttleCapture_congr {t : State} (hcurrent : t.currentOrder? a = s.currentOrder? a)
    (hcarried : (t.shuttle a).carried = (s.shuttle a).carried) (kind : FaultKind) (code : Option Byte) :
    t.shuttleCapture kind a code = s.shuttleCapture kind a code := by
  rw [shuttleCapture_eq, shuttleCapture_eq, hcurrent, hcarried]

theorem stageCommand?_congr {t : State} (h : t.tab = s.tab) (r : Order) (st : RunStage) :
    t.stageCommand? r st = s.stageCommand? r st := by
  have hhome : t.homePosition r.bin = s.homePosition r.bin := by
    simp only [State.homePosition, State.segmentOf, State.segment, h]
  cases st <;> simp only [State.stageCommand?, hhome]

/-! ## Halting and capturing (R57, R83) -/

/-- The last steps of every stop of a shuttle: its order is halted and the fault captured (R57, R83). -/
def State.stopOrder (a : Aisle) (reason : HaltReason) (kind : FaultKind) (s : State) : State :=
  (s.haltCurrent a reason).capture ((s.haltCurrent a reason).shuttleCapture kind a none)

section
variable (s a) (reason : HaltReason) (kind : FaultKind)

theorem alc_stopOrder : (s.stopOrder a reason kind).alc = s.alc := by
  obtain ⟨v, hv⟩ := haltCurrent_frame (s := s) a reason
  rw [State.stopOrder, hv]
  rfl

theorem shuttle_stopOrder (b : Aisle) : (s.stopOrder a reason kind).shuttle b = s.shuttle b := by
  rw [State.shuttle, alc_stopOrder, State.shuttle]

theorem slot_stopOrder (b : Aisle) : (s.stopOrder a reason kind).slot b = s.slot b := by
  rw [State.slot, alc_stopOrder, State.slot]

theorem fault_stopOrder :
    (s.stopOrder a reason kind).au.fault = some (captured (s.shuttleCapture kind a none) s.au.fault) := by
  obtain ⟨v, hv⟩ := haltCurrent_frame (s := s) a reason
  rw [State.stopOrder, shuttleCapture_haltCurrent, hv]
  rfl

end

section
variable (hc : s.currentOrder? a = some (o, r)) (reason : HaltReason) (kind : FaultKind)
include hc

theorem order?_stopOrder_run {st : RunStage} {m : Motion} (hst : r.stage = .run st) (hm : s.stageCommand? r st = some m) :
    (s.stopOrder a reason kind).order? o = some (r.haltedIn st m reason) := by
  rw [State.stopOrder, haltCurrent_of_run hc reason hst hm]
  exact (order?_putOrder s o o _).trans (if_pos rfl)

theorem order?_stopOrder_halted {h : Restart} (hst : r.stage = .halted h) :
    (s.stopOrder a reason kind).order? o = some r := by
  rw [State.stopOrder, haltCurrent_of_halted hc reason hst]
  exact (currentOrder?_eq_some.1 hc).2

end

/-- What the last steps of a stop leave, told of the state before the shuttle's own record was written (R57, R83). -/
theorem stopOrder_reads {v : State} (hentries : v.ou.orders = s.ou.orders) (htab : v.tab = s.tab) (hau : v.au = s.au)
    (horder : (v.shuttle a).order = (s.shuttle a).order) (hcarried : (v.shuttle a).carried = (s.shuttle a).carried)
    (reason : HaltReason) (kind : FaultKind) :
    (v.stopOrder a reason kind).au.fault = some (captured (s.shuttleCapture kind a none) s.au.fault)
      ∧ (∀ o r st m, s.currentOrder? a = some (o, r) → r.stage = .run st → s.stageCommand? r st = some m →
          (v.stopOrder a reason kind).order? o = some (r.haltedIn st m reason))
      ∧ ∀ o r h, s.currentOrder? a = some (o, r) → r.stage = .halted h → (v.stopOrder a reason kind).order? o = some r := by
  have hcurrent : v.currentOrder? a = s.currentOrder? a := currentOrder?_congr horder hentries
  refine ⟨?_, fun o r st m hc hst hm => ?_, fun o r h hc hst => ?_⟩
  · rw [fault_stopOrder, shuttleCapture_congr hcurrent hcarried, hau]
  · exact order?_stopOrder_run (hcurrent.trans hc) reason kind hst ((stageCommand?_congr htab r st).trans hm)
  · exact order?_stopOrder_halted (hcurrent.trans hc) reason kind hst

/-! ## Silences (R77) -/

theorem setSlot_none (h : s.slot a = none) : s.setSlot a none = s := by
  have hset : s.alc.slots.set a none = s.alc.slots := by
    have hself := Vector.set_getElem_self (xs := s.alc.slots) a.isLt
    rwa [show s.alc.slots[a.val] = none from h] at hself
  rw [State.setSlot, hset]

/-- A withdrawn message leaves the slot empty; the request that waited on it ends in the window alone (R77, R83). -/
theorem withdrawStopped_frame (s : State) (a : Aisle) : ∃ w, s.withdrawStopped a = { s.setSlot a none with win := w } := by
  unfold State.withdrawStopped
  cases h : s.slot a with
  | none => exact ⟨s.win, by rw [setSlot_none h]⟩
  | some m => cases m <;> exact ⟨_, rfl⟩

/-- The record of a shuttle that has drawn no answer three times (R77). -/
def Shuttle.offline (r : Shuttle) : Shuttle := { r with silence := 3, state := .offline, command := none, deadline := none }

theorem silent_counts (h : (s.shuttle a).silence < 2 ∨ (s.shuttle a).state = .offline ∨ (s.shuttle a).state = .caught) :
    s.silent a = s.putShuttle a { s.shuttle a with silence := min 3 ((s.shuttle a).silence + 1) } := by
  refine if_neg fun ⟨hn, hoffline, hcaught⟩ => ?_
  rcases h with h | h | h
  · omega
  · exact hoffline h
  · exact hcaught h

/-- The third silence (R77): the shuttle's record, its slot and a request that waited, then its order and the capture. -/
theorem silent_stops (h2 : 2 ≤ (s.shuttle a).silence) (hoffline : (s.shuttle a).state ≠ .offline)
    (hcaught : (s.shuttle a).state ≠ .caught) : ∃ w, s.silent a = State.stopOrder a .silent .linkSilent
      { (s.putShuttle a (s.shuttle a).offline).setSlot a none with win := w } := by
  have hn : min 3 ((s.shuttle a).silence + 1) = 3 := by omega
  have hrecord : (s.changeShuttle a fun r => { r with silence := 3 }).changeShuttle a
      (fun r => { r with state := .offline, command := none, deadline := none }) =
      s.putShuttle a (s.shuttle a).offline := by
    rw [State.changeShuttle, shuttle_changeShuttle, if_pos rfl]
    exact putShuttle_putShuttle s a _ _
  obtain ⟨w, hw⟩ := withdrawStopped_frame (s.putShuttle a (s.shuttle a).offline) a
  refine ⟨w, ?_⟩
  simp only [State.silent, hn, true_and]
  rw [if_pos ⟨hoffline, hcaught⟩, State.goOffline, hrecord, hw]
  rfl

/-- What the third silence leaves (R77, R83). -/
theorem silent_stops_reads (h2 : 2 ≤ (s.shuttle a).silence) (hoffline : (s.shuttle a).state ≠ .offline)
    (hcaught : (s.shuttle a).state ≠ .caught) :
    (s.silent a).shuttle a = (s.shuttle a).offline ∧ (s.silent a).slot a = none
      ∧ (s.silent a).au.fault = some (captured (s.shuttleCapture .linkSilent a none) s.au.fault)
      ∧ (∀ o r st m, s.currentOrder? a = some (o, r) → r.stage = .run st → s.stageCommand? r st = some m →
          (s.silent a).order? o = some (r.haltedIn st m .silent))
      ∧ ∀ o r h, s.currentOrder? a = some (o, r) → r.stage = .halted h → (s.silent a).order? o = some r := by
  obtain ⟨w, hw⟩ := silent_stops h2 hoffline hcaught
  have hshuttle := (shuttle_putShuttle s a a (s.shuttle a).offline).trans (if_pos rfl)
  have hslot := (slot_setSlot (s.putShuttle a (s.shuttle a).offline) a a none).trans (if_pos rfl)
  rw [hw]
  refine ⟨(shuttle_stopOrder _ a .silent .linkSilent a).trans hshuttle, (slot_stopOrder _ a .silent .linkSilent a).trans hslot,
    stopOrder_reads (by rfl) (by rfl) (by rfl) ?_ ?_ .silent .linkSilent⟩
  · exact (congrArg Shuttle.order hshuttle).trans rfl
  · exact (congrArg Shuttle.carried hshuttle).trans rfl

/-! ## Overruns (R82) -/

theorem exec_motionDeadlineExpiry (hp : s.phase = .running) (a : Aisle) :
    exec (.motionDeadlineExpiry a) s = .next (s.takeMotionExpiry a) :=
  congrArg _ (whenRunning_of_running hp (State.takeMotionExpiry a))

theorem takeMotionExpiry_of_none (h : (s.shuttle a).deadline = none) : s.takeMotionExpiry a = s := by
  simp only [State.takeMotionExpiry, h]

theorem takeMotionExpiry_of_some {n : Nat} (h : (s.shuttle a).deadline = some n) :
    s.takeMotionExpiry a = (s.overrun a).settle := by
  simp only [State.takeMotionExpiry, h]

/-- The record of a shuttle whose accepted motion has overrun its deadline (R82). -/
def Shuttle.overdue (r : Shuttle) : Shuttle := { r with state := .faulted, command := none, deadline := none }

theorem overrun_eq (s : State) (a : Aisle) : s.overrun a =
    ((s.putShuttle a (s.shuttle a).overdue).limitExchange a .silenceAndPosition).stopOrder a .fault .motionOverdue := rfl

theorem overrun_reads (s : State) (a : Aisle) : (s.overrun a).shuttle a = (s.shuttle a).overdue
    ∧ (s.overrun a).au.fault = some (captured (s.shuttleCapture .motionOverdue a none) s.au.fault)
    ∧ (∀ o r st m, s.currentOrder? a = some (o, r) → r.stage = .run st → s.stageCommand? r st = some m →
        (s.overrun a).order? o = some (r.haltedIn st m .fault))
    ∧ ∀ o r h, s.currentOrder? a = some (o, r) → r.stage = .halted h → (s.overrun a).order? o = some r := by
  have hshuttle := (shuttle_putShuttle s a a (s.shuttle a).overdue).trans (if_pos rfl)
  rw [overrun_eq]
  refine ⟨(shuttle_stopOrder _ a .fault .motionOverdue a).trans hshuttle,
    stopOrder_reads (by rfl) (by rfl) (by rfl) ?_ ?_ .fault .motionOverdue⟩
  · exact (congrArg Shuttle.order hshuttle).trans rfl
  · exact (congrArg Shuttle.carried hshuttle).trans rfl

theorem exchange_overrun {x : Exchange} (hx : s.alc.exchange = some x) (ha : x.shuttle = a) (huse : x.use = .full) :
    (s.overrun a).alc.exchange = some { x with use := .silenceAndPosition } := by
  rw [overrun_eq, alc_stopOrder]
  refine (congrArg (Option.map fun x => x.limit a .silenceAndPosition) hx).trans ?_
  simp [Exchange.limit, ha, huse]

/-! ## The ends of exchanges (R76) -/

section
variable {x : Exchange} (ans : Option LinkAnswer)

theorem endExchange_full (h : x.use = .full) :
    s.endExchange x ans = State.applyResult x.shuttle x.kind ans { s with alc.exchange := none } := by
  simp only [State.endExchange, h]

theorem endExchange_limited (h : x.use = .silenceAndPosition) : s.endExchange x ans =
    (State.countOnly x.shuttle ans { s with alc.exchange := none }).refuseRequest x.kind := by
  simp only [State.endExchange, h]

theorem endExchange_discarded (h : x.use = .discard) :
    s.endExchange x ans = State.refuseRequest x.kind { s with alc.exchange := none } := by
  simp only [State.endExchange, h]

end

/-- No request waits on a poll of a BUSY shuttle or on a motion command. -/
theorem refuseRequest_of_poll_or_command {k : ExchangeKind} (h : k = .busyPoll ∨ ∃ m, k = .command m) (s : State) :
    s.refuseRequest k = s := by
  rcases h with rfl | ⟨m, rfl⟩
  · rfl
  · rfl

/-- Settles O26: the count or the stop of a silence, the overrun, and the ends of the exchanges. -/
theorem silenceAndOverrunStopTheShuttle : Obligations.SilenceAndOverrunStopTheShuttle := by
  refine ⟨fun s a => ⟨fun h => ?counts, fun h2 hoffline hcaught => ?stops⟩, fun s a hp => ?overrun, fun s x hk => ?ends⟩
  case counts =>
    rw [silent_counts h]
    exact ⟨(shuttle_putShuttle s a a _).trans (if_pos rfl), rfl, rfl⟩
  case stops =>
    have hreads := silent_stops_reads h2 hoffline hcaught
    rw [shuttleCapture_eq] at hreads
    exact hreads
  case overrun =>
    rw [exec_motionDeadlineExpiry hp]
    refine ⟨fun h => congrArg _ (takeMotionExpiry_of_none h), fun n h => ⟨congrArg _ (takeMotionExpiry_of_some h), ?_⟩⟩
    obtain ⟨hshuttle, hfault, hrun, hhalted⟩ := overrun_reads s a
    rw [shuttleCapture_eq] at hfault
    refine ⟨hshuttle, fun o r st m hc hst hm hne => ?_, hhalted, hfault, fun x => exchange_overrun⟩
    rw [hrun o r st m hc hst hm, Order.haltedIn, decide_eq_false hne]
  case ends =>
    refine ⟨fun h hpoll => ?_, fun h => ⟨?_, fun ans => ?_⟩, fun h ans => ?_⟩
    · rw [endExchange_full none h, hpoll]
      rfl
    · rw [endExchange_limited none h, refuseRequest_of_poll_or_command hk]
      rfl
    · rw [endExchange_limited _ h, refuseRequest_of_poll_or_command hk]
      rfl
    · rw [endExchange_discarded ans h, refuseRequest_of_poll_or_command hk]

end Sys2Proof.Machine
end

section
/-! The completions of an order's commands and the label checks at a LIFT and a PROBE (R51 to R56, R71, R83, R86, R87). -/
namespace Sys2Proof.Machine

variable {s : State} {a : Aisle} {o : OrderNo} {r : Order} {rec : BinRec} {label : Label}

/-! ## Bins and shuttles -/

theorem binRec?_setPlace_ne {b c : BinNo} (h : c ≠ b) (p : Place) : (s.setPlace b p).binRec? c = s.binRec? c := by
  rw [State.setPlace, binRec?_changeBin, if_neg h]

theorem binRec?_unsettle_ne {b c : BinNo} (h : c ≠ b) : (s.unsettle b).binRec? c = s.binRec? c := by
  rw [State.unsettle, binRec?_changeBin, if_neg h]

theorem binRec?_unsettle_self {b : BinNo} (h : s.binRec? b = some rec) :
    (s.unsettle b).binRec? b = some (if rec.place = .home then { rec with place := .unverified } else rec) := by
  rw [State.unsettle, binRec?_changeBin, if_pos rfl, h]
  rfl

theorem shuttle_board (a : Aisle) (b : BinNo) : (s.board a b).shuttle a = { s.shuttle a with carried := some b } :=
  (shuttle_changeShuttle s a a fun q => { q with carried := some b }).trans (if_pos rfl)

theorem shuttle_unboard (a : Aisle) (b : BinNo) (p : Place) :
    (s.unboard a b p).shuttle a = { s.shuttle a with carried := none } :=
  (shuttle_changeShuttle s a a fun q => { q with carried := none }).trans (if_pos rfl)

theorem binRec?_board {b : BinNo} (h : s.binRec? b = some rec) :
    (s.board a b).binRec? b = some { rec with place := .onShuttle a } :=
  binRec?_setPlace_self (s := s.changeShuttle a _) h (.onShuttle a)

theorem binRec?_unboard {b : BinNo} (h : s.binRec? b = some rec) (p : Place) :
    (s.unboard a b p).binRec? b = some { rec with place := p } :=
  binRec?_setPlace_self (s := s.changeShuttle a _) h p

/-! ## Moving on and ending -/

/-- From `s` to `t` the order moved on to a stage, whose command is given to the shuttle; the shuttle's state and order stay
(R51, R80). -/
def State.MovedOn (s : State) (a : Aisle) (o : OrderNo) (r : Order) (t : State) (st : RunStage) (m : Motion) : Prop :=
  t.order? o = some { r with stage := .run st } ∧ t.slot a = some (.command m false)
    ∧ (t.shuttle a).command = some ⟨m, .sent, false⟩ ∧ (t.shuttle a).deadline = none
    ∧ (t.shuttle a).state = (s.shuttle a).state ∧ (t.shuttle a).order = (s.shuttle a).order

theorem movedOn_enterStage {u : State} (hstate : (u.shuttle a).state = (s.shuttle a).state)
    (horder : (u.shuttle a).order = (s.shuttle a).order) (st : RunStage) (m : Motion) :
    s.MovedOn a o r (u.enterStage a o r st m) st m := by
  have hshuttle : (u.enterStage a o r st m).shuttle a = { u.shuttle a with command := some ⟨m, .sent, false⟩, deadline := none } :=
    (shuttle_enterStage a a o r st m).trans (if_pos rfl)
  rw [State.MovedOn, hshuttle]
  exact ⟨(order?_enterStage u a o o r st m).trans (if_pos rfl), (slot_enterStage a a o r st m).trans (if_pos rfl), rfl, rfl,
    hstate, horder⟩

theorem carried_enterStage (st : RunStage) (m : Motion) :
    ((s.enterStage a o r st m).shuttle a).carried = (s.shuttle a).carried := by
  rw [shuttle_enterStage, if_pos rfl]

/-- An order that ends on its shuttle: its entry, its bin, and the IDLE shuttle; nothing is captured (R43, R70). -/
theorem finishIdle_ended (h : s.order? o = some r) (hb : s.binRec? r.bin = some rec) (out : Outcome) :
    let t := s.finishIdle a o out
    t.order? o = some { r with stage := .finished (r.outcomeOf out), pendingOutcome := none }
      ∧ t.binRec? r.bin = some { rec with holder := none }
      ∧ t.shuttle a = { s.shuttle a with state := .idle, order := none } ∧ t.au = s.au :=
  ⟨(order?_finishIdle h out o).trans (if_pos rfl), binRec?_finishIdle_self h out hb, shuttle_finishIdle h out,
    au_finishIdle h out⟩

theorem outcomeOf_of_not_cancelled (h : r.cancel = false) (out : Outcome) : r.outcomeOf out = out := by
  rw [Order.outcomeOf, h]
  rfl

theorem outcomeOf_of_cancelled (h : r.cancel = true) (out : Outcome) : r.outcomeOf out = .cancelled := by
  rw [Order.outcomeOf, h]
  rfl

/-! ## The LIFT's label (R51, R56, R86) -/

section
variable (h : s.order? o = some r) (hb : s.binRec? r.bin = some rec)
include h hb

theorem lift_absent :
    let t := s.stageDone a o r .lifting .none
    t.order? o = some { r with stage := .finished (r.outcomeOf .absent), pendingOutcome := none }
      ∧ t.binRec? r.bin = some { rec with place := .missing, holder := none }
      ∧ t.shuttle a = { s.shuttle a with state := .idle, order := none } ∧ t.au = s.au :=
  finishIdle_ended (s := s.setPlace r.bin .missing) h (binRec?_setPlace_self hb .missing) .absent

omit h in
theorem lift_unreadable :
    let t := s.stageDone a o r .lifting .unreadable
    t.order? o = some { r with stage := .run .lowering, pendingOutcome := some .unreadable }
      ∧ t.binRec? r.bin = some { rec with place := .unverified } ∧ (t.shuttle a).carried = (s.shuttle a).carried
      ∧ t.slot a = some (.command .lower false)
      ∧ t.au.fault = some (captured (labelCapture .labelUnreadable a o r.bin .lifting) s.au.fault) :=
  ⟨(order?_enterStage _ a o o _ .lowering .lower).trans (if_pos rfl), binRec?_setPlace_self hb .unverified,
    carried_enterStage .lowering .lower, (slot_enterStage a a o _ .lowering .lower).trans (if_pos rfl), rfl⟩

omit h hb in
theorem lift_mismatch_eq {x : BinNo} (hx : x ≠ r.bin) : s.stageDone a o r .lifting (.bin x) =
    (((s.setPlace r.bin .missing).unsettle x).capture (labelCapture .labelMismatch a o r.bin .lifting)).enterStage a o
      { r with pendingOutcome := some .mismatch } .lowering .lower := if_neg hx

omit h in
theorem lift_mismatch {x : BinNo} (hx : x ≠ r.bin) :
    let t := s.stageDone a o r .lifting (.bin x)
    t.order? o = some { r with stage := .run .lowering, pendingOutcome := some .mismatch }
      ∧ t.binRec? r.bin = some { rec with place := .missing }
      ∧ (∀ xr, s.binRec? x = some xr → t.binRec? x = some (if xr.place = .home then { xr with place := .unverified } else xr))
      ∧ t.slot a = some (.command .lower false)
      ∧ t.au.fault = some (captured (labelCapture .labelMismatch a o r.bin .lifting) s.au.fault) := by
  intro t
  rw [show t = _ from lift_mismatch_eq hx]
  refine ⟨(order?_enterStage _ a o o _ .lowering .lower).trans (if_pos rfl), ?_, fun xr hxr => ?_,
    (slot_enterStage a a o _ .lowering .lower).trans (if_pos rfl), rfl⟩
  · exact (binRec?_unsettle_ne (s := s.setPlace r.bin .missing) (Ne.symm hx)).trans (binRec?_setPlace_self hb .missing)
  · exact binRec?_unsettle_self (s := s.setPlace r.bin .missing) ((binRec?_setPlace_ne hx .missing).trans hxr)

end

theorem lift_match_eq : s.stageDone a o r .lifting (.bin r.bin) =
    if r.cancel then (s.board a r.bin).enterStage a o r .lowering .lower
    else (s.board a r.bin).enterStage a o r .carrying .toPort := if_pos rfl

/-- The bin of the order comes on board, and the order moves on (R51, R71). -/
theorem movedOn_board (hb : s.binRec? r.bin = some rec) (st : RunStage) (m : Motion) :
    let t := (s.board a r.bin).enterStage a o r st m
    s.MovedOn a o r t st m ∧ t.binRec? r.bin = some { rec with place := .onShuttle a } ∧ (t.shuttle a).carried = some r.bin :=
  ⟨movedOn_enterStage (by rw [shuttle_board]) (by rw [shuttle_board]) st m,
    binRec?_board hb, (carried_enterStage st m).trans (congrArg Shuttle.carried (shuttle_board a r.bin))⟩

/-! ## The PROBE's label (R54, R87) -/

section
variable (h : s.order? o = some r) (hb : s.binRec? r.bin = some rec) (hcancel : r.cancel = false)
include h hb hcancel

/-- A PROBE's end: the outcome, the bin's place and the capture are those its label calls for. -/
theorem probe_ended {u : State} {p : Place} (hentries : u.ou.orders = (s.setPlace r.bin p).ou.orders)
    (htab : u.tab = (s.setPlace r.bin p).tab) (out : Outcome) :
    let t := u.finishIdle a o out
    t.order? o = some { r with pendingOutcome := none, stage := .finished out }
      ∧ t.binRec? r.bin = some { rec with holder := none, place := p } ∧ (t.shuttle a).state = .idle ∧ t.au = u.au := by
  have ho : u.order? o = some r := by rw [State.order?, hentries]; exact h
  have hbin : u.binRec? r.bin = some { rec with place := p } := by
    rw [State.binRec?, htab]
    exact binRec?_setPlace_self hb p
  obtain ⟨hentry, hrecord, hshuttle, hau⟩ := finishIdle_ended (a := a) ho hbin out
  rw [outcomeOf_of_not_cancelled hcancel] at hentry
  exact ⟨hentry, hrecord, congrArg Shuttle.state hshuttle, hau⟩

theorem probe_match :
    let t := s.stageDone a o r .probing (.bin r.bin)
    t.order? o = some { r with pendingOutcome := none, stage := .finished .found }
      ∧ t.binRec? r.bin = some { rec with holder := none, place := .home } ∧ (t.shuttle a).state = .idle ∧ t.au = s.au := by
  rw [show s.stageDone a o r .probing (.bin r.bin) = (s.setPlace r.bin .home).finishIdle a o .found from if_pos rfl]
  exact probe_ended h hb hcancel (u := s.setPlace r.bin .home) (p := .home) rfl rfl .found

theorem probe_absent :
    let t := s.stageDone a o r .probing .none
    t.order? o = some { r with pendingOutcome := none, stage := .finished .absent }
      ∧ t.binRec? r.bin = some { rec with holder := none, place := .missing } ∧ (t.shuttle a).state = .idle ∧ t.au = s.au :=
  probe_ended h hb hcancel (u := s.setPlace r.bin .missing) (p := .missing) rfl rfl .absent

theorem probe_unreadable :
    let t := s.stageDone a o r .probing .unreadable
    t.order? o = some { r with pendingOutcome := none, stage := .finished .unreadable }
      ∧ t.binRec? r.bin = some { rec with holder := none, place := .unverified } ∧ (t.shuttle a).state = .idle
      ∧ t.au = (s.capture (labelCapture .labelUnreadable a o r.bin .probing)).au :=
  probe_ended h hb hcancel (u := (s.setPlace r.bin .unverified).capture (labelCapture .labelUnreadable a o r.bin .probing))
    (p := .unverified) rfl rfl .unreadable

theorem probe_mismatch {x : BinNo} (hx : x ≠ r.bin) :
    let t := s.stageDone a o r .probing (.bin x)
    t.order? o = some { r with pendingOutcome := none, stage := .finished .mismatch }
      ∧ t.binRec? r.bin = some { rec with holder := none, place := .missing } ∧ (t.shuttle a).state = .idle
      ∧ t.au = (s.capture (labelCapture .labelMismatch a o r.bin .probing)).au := by
  rw [show s.stageDone a o r .probing (.bin x) =
    ((s.setPlace r.bin .missing).capture (labelCapture .labelMismatch a o r.bin .probing)).finishIdle a o .mismatch from if_neg hx]
  exact probe_ended h hb hcancel (u := (s.setPlace r.bin .missing).capture (labelCapture .labelMismatch a o r.bin .probing))
    (p := .missing) rfl rfl .mismatch

end

/-! ## The other completions (R51 to R56) -/

/-- The order ended in `t`: its outcome, which the cancel mark overrides, and the shuttle IDLE without it (R43, R56, R70). -/
def Order.EndedIn (r : Order) (a : Aisle) (o : OrderNo) (t : State) (out : Outcome) : Prop :=
  t.order? o = some { r with stage := .finished (r.outcomeOf out), pendingOutcome := none }
    ∧ (t.shuttle a).state = .idle ∧ (t.shuttle a).order = none

/-- No bin moved from `s` to `t`: the directory and the shuttle's carried bin are the same. -/
def State.BinsStay (s : State) (a : Aisle) (t : State) : Prop :=
  t.tab = s.tab ∧ (t.shuttle a).carried = (s.shuttle a).carried

theorem binsStay_enterStage (st : RunStage) (m : Motion) : s.BinsStay a (s.enterStage a o r st m) :=
  ⟨rfl, carried_enterStage st m⟩

theorem movedOn_self (st : RunStage) (m : Motion) :
    s.MovedOn a o r (s.enterStage a o r st m) st m ∧ s.BinsStay a (s.enterStage a o r st m) :=
  ⟨movedOn_enterStage rfl rfl st m, binsStay_enterStage st m⟩

theorem finishIdle_endedIn (h : s.order? o = some r) (hb : s.binRec? r.bin = some rec) (out : Outcome) :
    r.EndedIn a o (s.finishIdle a o out) out ∧ (s.finishIdle a o out).binRec? r.bin = some { rec with holder := none }
      ∧ ((s.finishIdle a o out).shuttle a).carried = (s.shuttle a).carried := by
  obtain ⟨hentry, hrecord, hshuttle, -⟩ := finishIdle_ended (a := a) h hb out
  exact ⟨⟨hentry, congrArg Shuttle.state hshuttle, congrArg Shuttle.order hshuttle⟩, hrecord, by rw [hshuttle]⟩

theorem seeking_done (h : s.order? o = some r) (hb : s.binRec? r.bin = some rec) :
    let t := s.stageDone a o r .seeking label
    (r.cancel = true → r.EndedIn a o t .cancelled ∧ t.binRec? r.bin = some { rec with holder := none })
      ∧ (r.cancel = false → r.kind = .probe → s.MovedOn a o r t .probing .probe ∧ s.BinsStay a t)
      ∧ (r.cancel = false → r.kind ≠ .probe → s.MovedOn a o r t .lifting .lift ∧ s.BinsStay a t) := by
  intro t
  have ht : t = s.seekDone a o r := rfl
  rw [ht, State.seekDone]
  refine ⟨fun hc => ?_, fun hc hk => ?_, fun hc hk => ?_⟩
  · obtain ⟨hended, hrecord, -⟩ := finishIdle_endedIn (a := a) h hb .cancelled
    rw [if_pos hc]
    exact ⟨hended, hrecord⟩
  · rw [if_neg (ne_true_of_eq_false hc), if_pos hk]
    exact movedOn_self .probing .probe
  · rw [if_neg (ne_true_of_eq_false hc), if_neg hk]
    exact movedOn_self .lifting .lift

theorem toPort_done (s : State) (a : Aisle) (o : OrderNo) (r : Order) :
    let t := s.toPortDone a o r
    let home : Motion := .travel (s.homePosition r.bin)
    (r.cancel = true → s.MovedOn a o r t .returning home ∧ s.BinsStay a t)
      ∧ (r.cancel = false → s.outPlace a = none → s.zoneState 3 = .normal → s.MovedOn a o r t .handing .handOff ∧ s.BinsStay a t)
      ∧ (r.cancel = false → s.outPlace a ≠ none ∨ s.zoneState 3 ≠ .normal →
          t = s.putOrder o { r with stage := .run .holding }) := by
  intro t home
  have ht : t = s.toPortDone a o r := rfl
  rw [ht, State.toPortDone]
  refine ⟨fun hc => ?_, fun hc hplace hzone => ?_, fun hc hheld => ?_⟩
  · rw [if_pos hc]
    exact movedOn_self .returning home
  · rw [if_neg (ne_true_of_eq_false hc), if_pos (mayHandOff_iff.mpr ⟨hplace, hzone⟩)]
    exact movedOn_self .handing .handOff
  · have hno : ¬ s.mayHandOff a = true := fun hmay => by
      obtain ⟨hplace, hzone⟩ := mayHandOff_iff.mp hmay
      exact hheld.elim (fun k => k hplace) fun k => k hzone
    rw [if_neg (ne_true_of_eq_false hc), if_neg hno]

theorem handing_done (hb : s.binRec? r.bin = some rec) :
    let t := s.stageDone a o r .handing label
    t.order? o = some { r with stage := .run .waitingLane } ∧ t.binRec? r.bin = some { rec with place := .portOut a }
      ∧ t.outPlace a = some r.bin ∧ (t.shuttle a).state = .idle ∧ (t.shuttle a).order = none ∧ (t.shuttle a).carried = none := by
  intro t
  let u := (s.unboard a r.bin (.portOut a)).setOutPlace a (some r.bin)
  have hunboard : u.shuttle a = { s.shuttle a with carried := none } := shuttle_unboard a r.bin (.portOut a)
  have hshuttle : t.shuttle a = { u.shuttle a with state := .idle, order := none } :=
    (shuttle_changeShuttle u a a fun q => { q with state := .idle, order := none }).trans (if_pos rfl)
  rw [hshuttle, hunboard]
  exact ⟨(order?_putOrder (s := u.goIdle a) o o _).trans (if_pos rfl), binRec?_unboard hb (.portOut a),
    (outPlace_setOutPlace (s := s.unboard a r.bin (.portOut a)) a a _).trans (if_pos rfl), rfl, rfl, rfl⟩

theorem takingOn_done (hb : s.binRec? r.bin = some rec) :
    let t := s.stageDone a o r .takingOn label
    s.MovedOn a o r t .returning (.travel (s.homePosition r.bin)) ∧ t.binRec? r.bin = some { rec with place := .onShuttle a }
      ∧ (t.shuttle a).carried = some r.bin ∧ t.inPlace a = none := by
  intro t
  have hshuttle : ((s.board a r.bin).setInPlace a none).shuttle a = { s.shuttle a with carried := some r.bin } :=
    shuttle_board a r.bin
  exact ⟨movedOn_enterStage (by rw [hshuttle]) (by rw [hshuttle]) .returning _, binRec?_board hb,
    (carried_enterStage .returning _).trans (congrArg Shuttle.carried hshuttle),
    (inPlace_setInPlace (s := s.board a r.bin) a a none).trans (if_pos rfl)⟩

/-- What a failed label check leaves for the end of the LOWER (R51, R86). -/
def LabelFailure.outcome : LabelFailure → Outcome
  | .mismatch => .mismatch
  | .unreadable => .unreadable

theorem lowering_done_failed {f : LabelFailure} (hf : r.pendingOutcome = some f) :
    s.stageDone a o r .lowering label = s.finishIdle a o f.outcome := by
  have hdone : s.stageDone a o r .lowering label = s.lowerDone a o r := rfl
  rw [hdone, State.lowerDone, hf]
  cases f with
  | mismatch => rfl
  | unreadable => rfl

theorem lowering_done_ok (hf : r.pendingOutcome = none) :
    s.stageDone a o r .lowering label = (s.unboard a r.bin .home).finishIdle a o .ok := by
  have hdone : s.stageDone a o r .lowering label = s.lowerDone a o r := rfl
  rw [hdone, State.lowerDone, hf]

theorem lowering_done (h : s.order? o = some r) (hb : s.binRec? r.bin = some rec) :
    let t := s.stageDone a o r .lowering label
    (r.pendingOutcome = none → r.EndedIn a o t .ok ∧ t.binRec? r.bin = some { rec with place := .home, holder := none }
        ∧ (t.shuttle a).carried = none)
      ∧ ∀ f, r.pendingOutcome = some f → r.EndedIn a o t f.outcome ∧ t.binRec? r.bin = some { rec with holder := none }
        ∧ (t.shuttle a).carried = (s.shuttle a).carried := by
  refine ⟨fun hf => ?_, fun f hf => ?_⟩
  · rw [lowering_done_ok hf]
    obtain ⟨hended, hrecord, hcarried⟩ :=
      finishIdle_endedIn (s := s.unboard a r.bin .home) (a := a) h (binRec?_unboard hb .home) .ok
    exact ⟨hended, hrecord, hcarried.trans (congrArg Shuttle.carried (shuttle_unboard a r.bin .home))⟩
  · rw [lowering_done_failed hf]
    exact finishIdle_endedIn h hb f.outcome

/-- Settles O29, part by part: the label at a PROBE and a LIFT of an unmarked order, then each completion of a marked or an
unmarked one. -/
theorem labelChecksSettleTheBin : Obligations.LabelChecksSettleTheBin := by
  refine ⟨fun s a o r rec h hc hb => ⟨fun label => ?_, ?_, ?_, lift_unreadable hb, fun x hx => lift_mismatch hb hx⟩,
    fun s a o r rec label h hb => ⟨seeking_done h hb, fun hc => ⟨?_, ?_, ?_, fun x hx => ?_⟩, fun st hst => ?_, handing_done hb,
      takingOn_done hb, movedOn_self .lowering .lower, ?_⟩⟩
  · cases label with
    | none =>
      obtain ⟨hentry, hrecord, hidle, hau⟩ := probe_absent (a := a) h hb hc
      exact ⟨hentry, hrecord, hidle, congrArg AttentionUnit.fault hau⟩
    | unreadable =>
      obtain ⟨hentry, hrecord, hidle, hau⟩ := probe_unreadable (a := a) h hb hc
      exact ⟨hentry, hrecord, hidle, congrArg AttentionUnit.fault hau⟩
    | bin x =>
      by_cases hx : x = r.bin
      · obtain ⟨hentry, hrecord, hidle, hau⟩ := probe_match (a := a) h hb hc
        simp only [hx, if_true]
        exact ⟨hentry, hrecord, hidle, congrArg AttentionUnit.fault hau⟩
      · obtain ⟨hentry, hrecord, hidle, hau⟩ := probe_mismatch (a := a) h hb hc hx
        simp only [hx, if_false]
        exact ⟨hentry, hrecord, hidle, congrArg AttentionUnit.fault hau⟩
  · rw [lift_match_eq, if_neg (ne_true_of_eq_false hc)]
    obtain ⟨⟨hentry, hslot, -⟩, hrecord, hcarried⟩ := movedOn_board (a := a) (o := o) hb .carrying .toPort
    exact ⟨hentry, hrecord, hcarried, hslot, rfl⟩
  · obtain ⟨hentry, hrecord, hshuttle, hau⟩ := lift_absent (a := a) h hb
    rw [outcomeOf_of_not_cancelled hc] at hentry
    exact ⟨hentry, hrecord, congrArg Shuttle.state hshuttle, congrArg AttentionUnit.fault hau⟩
  · rw [lift_match_eq, if_pos hc]
    exact movedOn_board hb .lowering .lower
  · obtain ⟨hentry, hrecord, hshuttle, hau⟩ := lift_absent (a := a) h hb
    rw [outcomeOf_of_cancelled hc, ← outcomeOf_of_cancelled hc .cancelled] at hentry
    exact ⟨⟨hentry, congrArg Shuttle.state hshuttle, congrArg Shuttle.order hshuttle⟩, hrecord, congrArg AttentionUnit.fault hau⟩
  · obtain ⟨hentry, hrecord, -, hslot, hfault⟩ := lift_unreadable (a := a) (o := o) hb
    exact ⟨hentry, hrecord, hslot, hfault⟩
  · obtain ⟨hentry, hrecord, -, hslot, hfault⟩ := lift_mismatch (a := a) (o := o) hb hx
    exact ⟨hentry, hrecord, hslot, hfault⟩
  · cases hst with
    | inl hst => rw [hst]; exact toPort_done s a o r
    | inr hst => rw [hst]; exact toPort_done s a o r
  · obtain ⟨hok, hfailed⟩ := lowering_done (a := a) (label := label) h hb
    refine ⟨hok, fun f hf => ?_⟩
    cases f with
    | mismatch => exact hfailed .mismatch hf
    | unreadable => exact hfailed .unreadable hf

end Sys2Proof.Machine
end

section
/-! RESUME ORDER, REVIVE SHUTTLE and READ SHUTTLE (R58, R59, R89). -/
namespace Sys2Proof.Machine

variable {s : State} {a : Aisle} {n o : OrderNo} {r : Order} {h : Restart}

/-! ## The checks of RESUME ORDER (R58) -/

theorem next_waits {code : Word} {e : Evaluation} {k : WaitKind} {t : State} (hw : s.windowFree = true)
    (he : e s.operands (s.storeRequest code) = .wait k t) :
    (.next (s.takeRequest code e) : Result) = .next { t with win.waiting := some { kind := k, operands := s.operands } } :=
  congrArg _ (takeRequest_waits hw he)

theorem resumeOrder_waits {p : Operands} (hp : p.cell 0 = n.val) (hr : s.order? n = some r) (hst : r.stage = .halted h)
    (hfire : h.reason ≠ .fire) (hzone : s.zoneState (zoneOf r.aisle) = .normal) :
    resumeOrder p s = .wait (.resumeOrder n) (s.setSlot r.aisle (some .resume)) := by
  rw [resumeOrder, onOrder_some hp hr]
  simp only [hst]
  exact if_pos ⟨hfire, zoneNormal_iff.2 hzone⟩

theorem resumeOrder_refused {p : Operands} (hp : p.cell 0 = n.val) (hr : s.order? n = some r)
    (hno : (∀ h, r.stage ≠ .halted h) ∨ (∃ h, r.stage = .halted h ∧ h.reason = .fire)
      ∨ s.zoneState (zoneOf r.aisle) ≠ .normal) : resumeOrder p s = .refuse .wrongState := by
  rw [resumeOrder, onOrder_some hp hr]
  cases hst : r.stage with
  | run st => rfl
  | finished out => rfl
  | halted h =>
    refine if_neg fun ⟨hfire, hzone⟩ => ?_
    rcases hno with hno | ⟨h', hst', hfire'⟩ | hno
    · exact hno h hst
    · obtain rfl := Stage.halted.inj (hst.symm.trans hst')
      exact hfire hfire'
    · exact hno (zoneNormal_iff.1 hzone)

/-! ## Requests on a shuttle (R89) -/

theorem onShuttle_bad {p : Operands} {f : Aisle → State → Reply} (hp : 5 < p.cell 0) :
    onShuttle f p s = .refuse .badOperand := by
  simp only [onShuttle, index?_of_le (Nat.succ_le_of_lt hp)]

theorem onShuttle_some {p : Operands} {f : Aisle → State → Reply} (hp : p.cell 0 = a.val) : onShuttle f p s = f a s := by
  simp only [onShuttle, index?_of_eq hp]

theorem stopped_eq (s : State) (a : Aisle) :
    s.stopped a = decide ((s.shuttle a).state = .faulted ∨ (s.shuttle a).state = .offline) :=
  (Bool.decide_or _ _).symm

theorem reviveRefusal_eq (s : State) (a : Aisle) : reviveRefusal s a = firstFailing
    [(decide ((s.shuttle a).state = .faulted ∨ (s.shuttle a).state = .offline), .wrongState),
     (!s.haltedOrder a, .wrongState), (decide (s.zoneState (zoneOf a) = .normal), .zoneLocked)] := by
  rw [← stopped_eq]
  rfl

theorem reviveShuttle_refused {p : Operands} {c : Code} (hp : p.cell 0 = a.val) (hc : reviveRefusal s a = some c) :
    reviveShuttle p s = .refuse c := by
  rw [reviveShuttle, onShuttle_some hp, hc]

theorem reviveShuttle_waits {p : Operands} (hp : p.cell 0 = a.val) (hok : reviveRefusal s a = none) :
    reviveShuttle p s = .wait (.reviveShuttle a) (s.setSlot a (some .hostRevival)) := by
  rw [reviveShuttle, onShuttle_some hp, hok]

theorem judged_reviveShuttle (hw : s.windowFree = true) (hp : s.operands.cell 0 = a.val) : Judged s .reviveShuttle 0x2B
    [(decide ((s.shuttle a).state = .faulted ∨ (s.shuttle a).state = .offline), .wrongState),
     (!s.haltedOrder a, .wrongState), (decide (s.zoneState (zoneOf a) = .normal), .zoneLocked)]
    { (s.storeRequest 0x2B).setSlot a (some .hostRevival) with win.waiting := some ⟨.reviveShuttle a, s.operands⟩ } := by
  have hchecks := reviveRefusal_eq (s.storeRequest 0x2B) a
  exact ⟨fun hok => next_waits (e := reviveShuttle) hw (reviveShuttle_waits hp (hchecks.trans hok)),
    fun c hc => next_refused hw (reviveShuttle_refused hp (hchecks.trans hc))⟩

/-- The cells of a shuttle's answer, field by field (R89). -/
theorem shuttleAnswer_eq (q : Shuttle) : q.answer =
    { a0 := word (q.state.code * 8192 + q.silence * 2048
        + (match q.command with | some c => c.mark.code | none => 0) * 512 + q.faultCode.toNat)
      a1 := match q.carried with | some b => word b.val | none => 0xFFFF
      a2 := bytePair (match q.order with | some o => o.val | none => 0xFF)
        (match q.command with | some c => c.motion.code | none => 0xFF)
      a3 := word q.position.code } := by
  obtain ⟨state, carried, order, command⟩ := q
  cases carried <;> cases order <;> cases command <;> rfl

/-! ## The courses of a RESUME ORDER (R59) -/

theorem course_nextStep (hseen : h.completionSeen = true) (st : StatusAnswer) : h.course st = .nextStep := if_pos hseen

section
variable {st : StatusAnswer} (hseen : h.completionSeen = false)
include hseen

theorem course_countedDone (hshows : st.shows h.command = true) (hm : st.motion = .done) : h.course st = .countedDone := by
  simp only [Restart.course, hseen, Bool.false_eq_true, if_false, hshows, if_true, hm]

theorem course_stillRunning (hshows : st.shows h.command = true) (hm : st.motion = .moving) : h.course st = .stillRunning := by
  simp only [Restart.course, hseen, Bool.false_eq_true, if_false, hshows, if_true, hm]

theorem course_repeated (hagain : st.shows h.command = false ∨ st.motion = .idle) : h.course st = .repeated := by
  cases hshows : st.shows h.command with
  | false => simp only [Restart.course, hseen, Bool.false_eq_true, if_false, hshows]
  | true =>
    have hm : st.motion = .idle := hagain.resolve_left (by rw [hshows]; exact Bool.noConfusion)
    simp only [Restart.course, hseen, Bool.false_eq_true, if_false, hshows, if_true, hm]

end

/-- The end of a RESUME ORDER that took its order on: the stage it entered and the course (R59). -/
def State.resumeDone (o : OrderNo) (course : Nat) (t : State) : State :=
  t.endRequest .ok { a0 := match t.order? o with | some w => word w.stage.code | none => 0xFF, a1 := word course }

theorem resumeDone_eq (o : OrderNo) (course : Nat) (t : State) :
    t.resumeDone o course = t.endRequest .ok { a0 := word (t.stageCodeOf o), a1 := word course } := by
  rw [State.resumeDone, State.stageCodeOf]
  cases t.order? o with
  | none => rfl
  | some w => rfl

section
variable {st : StatusAnswer} (hr : s.order? o = some r) (hst : r.stage = .halted h)
include hr hst

theorem resumeWith_follows {c : Course} (hc : h.course st = c)
    (hgo : c = .repeated → h.command.atPort = false ∨ s.zoneState 3 = .normal) :
    s.resumeWith a o st = (s.followCourse a o r h c st.label).resumeDone o c.code := by
  have hpass : ¬ (c = .repeated ∧ h.command.atPort = true ∧ s.hallNormal = false) := fun ⟨hagain, hport, hhall⟩ => by
    rcases hgo hagain with hno | hzone
    · rw [hport] at hno
      exact Bool.noConfusion hno
    · rw [show s.hallNormal = true from zoneNormal_iff.2 hzone] at hhall
      exact Bool.noConfusion hhall
  rw [resumeDone_eq]
  simp only [State.resumeWith, hr, hst, hc, if_neg hpass]

/-- Check 5 of R58: a command into the port is not sent again while zone 3 is not NORMAL. -/
theorem resumeWith_locked (hc : h.course st = .repeated) (hport : h.command.atPort = true) (hzone : s.zoneState 3 ≠ .normal) :
    s.resumeWith a o st = s.endRequest .zoneLocked {} := by
  have hhall : s.hallNormal = false := Bool.eq_false_iff.2 fun hnormal => hzone (zoneNormal_iff.1 hnormal)
  simp only [State.resumeWith, hr, hst, if_pos (And.intro hc (And.intro hport hhall))]

end

/-! ## The end of a RESUME ORDER's exchange (R59) -/

theorem heard_frame (s : State) (a : Aisle) (x : LinkAnswer) : (s.heard a x).win = s.win
    ∧ (s.heard a x).ou = s.ou ∧ ∀ z, (s.heard a x).zoneState z = s.zoneState z := by
  obtain ⟨q, hq⟩ := heard_eq (s := s) a x
  rw [hq]
  exact ⟨rfl, rfl, fun z => rfl⟩

theorem resumeResult_of_fault {st : StatusAnswer} (hm : st.motion = .fault) :
    s.resumeResult a (some (.status st)) = (s.heard a (.status st)).endRequest .shuttleFaulted {} := by
  simp only [State.resumeResult, hm, if_true]

theorem resumeResult_of_status {st : StatusAnswer} {q : Operands} (hm : st.motion ≠ .fault)
    (hwait : s.win.waiting = some ⟨.resumeOrder o, q⟩) :
    s.resumeResult a (some (.status st)) = (s.heard a (.status st)).resumeWith a o st := by
  have hresumed : (s.heard a (.status st)).resumed? = some o := by
    rw [State.resumed?, (heard_frame s a _).1, hwait]
  simp only [State.resumeResult, if_neg hm, hresumed]

section
variable {x : Exchange} (hk : x.kind = .resume) (ans : Option LinkAnswer)
include hk

theorem endExchange_resume_full (hu : x.use = .full) :
    s.endExchange x ans = State.resumeResult x.shuttle ans { s with alc.exchange := none } := by
  rw [endExchange_full ans hu, hk]
  rfl

theorem endExchange_resume_limited (hu : x.use = .silenceAndPosition) :
    s.endExchange x ans = (State.countOnly x.shuttle ans { s with alc.exchange := none }).endRequest .wrongState {} := by
  rw [endExchange_limited ans hu, hk]
  rfl

theorem endExchange_resume_discarded (hu : x.use = .discard) :
    s.endExchange x ans = State.endRequest .wrongState {} { s with alc.exchange := none } := by
  rw [endExchange_discarded ans hu, hk]
  rfl

end

/-! ## The end of a REVIVE SHUTTLE's exchange (R89) -/

section
variable {x : Exchange} (hk : x.kind = .hostRevival) (ans : Option LinkAnswer)
include hk

theorem endExchange_hostRevival_full (hu : x.use = .full) :
    s.endExchange x ans = State.hostRevivalResult x.shuttle ans { s with alc.exchange := none } := by
  rw [endExchange_full ans hu, hk]
  rfl

theorem endExchange_hostRevival_limited (hu : x.use = .silenceAndPosition) :
    s.endExchange x ans = (State.countOnly x.shuttle ans { s with alc.exchange := none }).endRequest .zoneLocked {} := by
  rw [endExchange_limited ans hu, hk]
  rfl

theorem endExchange_hostRevival_discarded (hu : x.use = .discard) :
    s.endExchange x ans = State.endRequest .zoneLocked {} { s with alc.exchange := none } := by
  rw [endExchange_discarded ans hu, hk]
  rfl

end

theorem restoreWord_eq (m : RestoreMade) :
    m.word = match m with | .made e => word e.val | .waits => 0xFFFE | .none => 0xFFFF := by
  cases m <;> rfl

theorem atPort_iff (m : Motion) : m.atPort = true ↔ m = .handOff ∨ m = .takeOn := by
  cases m <;> simp [Motion.atPort]

/-- Settles O18: the checks and the wait, the courses of R59, and the end of a REVIVE SHUTTLE. -/
theorem resumeAndReviveWaitForStatus : Obligations.ResumeAndReviveWaitForStatus := by
  refine ⟨fun s hw => ⟨fun hp => next_refused hw (onOrder_bad hp), fun o hp => ⟨fun hr => next_refused hw (onOrder_none hp hr),
      fun r hr => ⟨fun h hst hfire hzone => next_waits (e := resumeOrder) hw
        (resumeOrder_waits (s := s.storeRequest 0x24) hp hr hst hfire hzone),
        fun hno => next_refused hw (resumeOrder_refused hp hr hno)⟩⟩,
      fun hp => ⟨next_refused hw (onShuttle_bad hp), next_refused hw (onShuttle_bad hp)⟩,
      fun a hp => ⟨judged_reviveShuttle hw hp, ?read⟩⟩,
    fun s x hk => ⟨fun hu => endExchange_resume_full hk none hu,
      fun st hu hm => (endExchange_resume_full hk _ hu).trans (resumeResult_of_fault hm),
      fun st o q r h hu hm hwait hr hst => ?courses, fun ans hu => ?limited, fun ans => endExchange_resume_discarded hk ans⟩,
    fun s x ans hk => ⟨fun hu hidle => ?revived, fun hu hnot => ?faulted, fun hu => ?limitedRevival,
      endExchange_hostRevival_discarded hk ans⟩, atPort_iff⟩
  case read =>
    refine (next_answered (e := readShuttle) (t := s.storeRequest 0x2A) hw (onShuttle_some hp)).trans ?_
    rw [shuttleAnswer_eq]
    rfl
  case courses =>
    obtain ⟨-, hou, hzones⟩ := heard_frame { s with alc.exchange := none } x.shuttle (.status st)
    have hend := (endExchange_resume_full (s := s) hk (some (.status st)) hu).trans (resumeResult_of_status hm hwait)
    have hr' : (State.heard x.shuttle (.status st) { s with alc.exchange := none }).order? o = some r := by
      rw [State.order?, hou]
      exact hr
    rw [hend]
    refine ⟨fun hseen => ?_, fun hseen hshows hdone => ?_, fun ⟨hseen, hagain⟩ hport hzone => ?_,
      fun ⟨hseen, hagain⟩ hgo => ?_, fun hseen hshows hmoving => ?_⟩
    · exact resumeWith_follows hr' hst (course_nextStep hseen st) nofun
    · exact resumeWith_follows hr' hst (course_countedDone hseen hshows hdone) nofun
    · exact resumeWith_locked hr' hst (course_repeated hseen hagain) hport (by rw [hzones]; exact hzone)
    · exact resumeWith_follows hr' hst (course_repeated hseen hagain) fun _ => by rw [hzones]; exact hgo
    · exact resumeWith_follows hr' hst (course_stillRunning hseen hshows hmoving) nofun
  case limited =>
    rw [endExchange_resume_limited hk ans hu]
    cases ans <;> rfl
  case revived =>
    refine ((endExchange_hostRevival_full hk ans hu).trans (if_pos hidle)).trans ?_
    exact congrArg (fun w => State.endRequest .ok { a0 := w, a1 := word ShuttleState.idle.code } _) (restoreWord_eq _)
  case faulted => exact (endExchange_hostRevival_full hk ans hu).trans (if_neg hnot)
  case limitedRevival =>
    rw [endExchange_hostRevival_limited hk ans hu]
    cases ans <;> rfl

end Sys2Proof.Machine
end

section
/-! Messages and answers on the aisle link (R73 to R75, R184, R185). -/
namespace Sys2Proof.Machine

variable {k : ExchangeKind} {m : Motion} {chars : List LinkChar} {bytes : List Nat} {ans : LinkAnswer}

/-! ## Messages (R74, R184) -/

theorem checkByte_lt (bytes : List Nat) : checkByte bytes < 256 := Nat.mod_lt _ (by decide)

/-- The check brings the sum of a message's characters to 0 modulo 256 (R74). -/
theorem sum_add_checkByte (bytes : List Nat) : (bytes.sum + checkByte bytes) % 256 = 0 := by
  unfold checkByte
  omega

/-- A message by its code and its arguments: a motion command's own, or STATUS with none (R74, R184). -/
theorem chars_eq (k : ExchangeKind) (a : Aisle) : k.chars a = messageChars a
    (match k with | .command m => m.code | _ => 0x10)
    (match k with | .command (.travel t) => [t / 256 % 256, t % 256] | _ => []) := by
  rcases k with m | _ | _ | _ | _ | _
  · cases m <;> rfl
  all_goals rfl

/-! ## The data of received characters (R73) -/

theorem dataBytes?_of_bad : ∀ {chars : List LinkChar}, (∃ c ∈ chars, c.mark = true ∨ c.stopMarking = false) →
    dataBytes? chars = none
  | c :: chars, h => by
    by_cases hc : c.mark = true ∨ c.stopMarking = false
    · have hbad : (c.mark || !c.stopMarking) = true := by simpa using hc
      simp only [dataBytes?, hbad, if_true]
    · obtain ⟨d, hd, hbad⟩ := h
      have hrest : ∃ d ∈ chars, d.mark = true ∨ d.stopMarking = false := by
        rcases List.mem_cons.1 hd with rfl | hin
        · exact absurd hbad hc
        · exact ⟨d, hin, hbad⟩
      simp only [dataBytes?, dataBytes?_of_bad hrest, ite_self]

theorem dataBytes?_of_data : ∀ {chars : List LinkChar}, (∀ c ∈ chars, c.mark = false ∧ c.stopMarking = true) →
    dataBytes? chars = some (chars.map (·.data.toNat))
  | [], _ => rfl
  | c :: chars, h => by
    obtain ⟨⟨hmark, hstop⟩, hrest⟩ := List.forall_mem_cons.1 h
    simp [dataBytes?, hmark, hstop, dataBytes?_of_data hrest]

/-! ## Answers by their code (R75, R184) -/

/-- The answers that bytes with a correct check make: ACK, REFUSED with its reason, STATUS with its fields. -/
theorem readBytes?_eq_some (h : readBytes? bytes = some ans) : bytes.sum % 256 = 0
    ∧ ((∃ c, bytes = [0x80, c] ∧ ans = .ack) ∨ (∃ r c, bytes = [0x81, r, c] ∧ ans = .refused (byte r))
      ∨ ∃ m l lh ll ph pl f c st, bytes = [0x90, m, l, lh, ll, ph, pl, f, c] ∧ ans = .status st) := by
  unfold readBytes? at h
  split at h
  · rename_i hsum
    refine ⟨by simpa [sumsToZero] using hsum, ?_⟩
    split at h
    · cases h
      exact .inl ⟨_, rfl, rfl⟩
    · cases h
      exact .inr (.inl ⟨_, _, rfl, rfl⟩)
    · cases h
      exact .inr (.inr ⟨_, _, _, _, _, _, _, _, _, rfl, rfl⟩)
    · cases h
  · cases h

/-- An answer that is read is made of data characters alone, and fits the message (R73, R75). -/
theorem readAnswer?_eq_some (h : readAnswer? k chars = some ans) :
    (∀ c ∈ chars, c.mark = false ∧ c.stopMarking = true) ∧ readBytes? (chars.map (·.data.toNat)) = some ans
      ∧ k.fits ans = true := by
  have hdata : ∀ c ∈ chars, c.mark = false ∧ c.stopMarking = true := by
    by_contra hno
    have hbad : ∃ c ∈ chars, c.mark = true ∨ c.stopMarking = false := by
      simpa only [not_forall, not_and_or, Bool.not_eq_false, Bool.not_eq_true, exists_prop] using hno
    rw [readAnswer?, dataBytes?_of_bad hbad] at h
    cases h
  refine ⟨hdata, ?_⟩
  rw [readAnswer?, dataBytes?_of_data hdata] at h
  dsimp only at h
  split at h
  · rename_i x hx
    split at h
    · rename_i hfits
      cases h
      exact ⟨hx, hfits⟩
    · cases h
  · cases h

theorem data_of_bytes (bytes : List Byte) :
    (bytes.map fun b => (⟨b, false, true⟩ : LinkChar)).map (·.data.toNat) = bytes.map (·.toNat) := by
  rw [List.map_map]
  rfl

theorem readAnswer?_of_bytes {bytes : List Byte} (h : readBytes? (bytes.map (·.toNat)) = some ans) (hfits : k.fits ans = true) :
    readAnswer? k (bytes.map fun b => ⟨b, false, true⟩) = some ans := by
  have hdata : ∀ c ∈ bytes.map (fun b => (⟨b, false, true⟩ : LinkChar)), c.mark = false ∧ c.stopMarking = true :=
    List.forall_mem_map.2 fun _ _ => ⟨rfl, rfl⟩
  rw [readAnswer?, dataBytes?_of_data hdata, data_of_bytes]
  simp only [h, hfits, if_true]

theorem command_of_fits (h : k.fits ans = true) (hans : ans = .ack ∨ ∃ reason, ans = .refused reason) :
    ∃ m, k = .command m := by
  cases k with
  | command m => exact ⟨m, rfl⟩
  | busyPoll | offlinePoll | revival | hostRevival | resume => obtain rfl | ⟨reason, rfl⟩ := hans <;> cases h

/-- STATUS fits every message that is no motion command (R75). -/
theorem fits_status (hk : ∀ m, k ≠ .command m) (st : StatusAnswer) : k.fits (.status st) = true := by
  cases k with
  | command m => exact absurd rfl (hk m)
  | busyPoll | offlinePoll | revival | hostRevival | resume => rfl

/-- The code of an answer that is read, with its length, and the messages it fits (R75, R184). -/
theorem code_of_readAnswer? (h : readAnswer? k chars = some ans) : (chars.map (·.data.toNat)).sum % 256 = 0
    ∧ answerLength (firstByte chars) = some chars.length
    ∧ (firstByte chars = 0x90 → ∀ m, k ≠ .command m)
    ∧ (firstByte chars = 0x80 ∨ firstByte chars = 0x81 → ∃ m, k = .command m) := by
  obtain ⟨-, hread, hfits⟩ := readAnswer?_eq_some h
  obtain ⟨hsum, hcases⟩ := readBytes?_eq_some hread
  have hlength : chars.length = (chars.map (·.data.toNat)).length := (List.length_map _).symm
  have hfirst : firstByte chars = (chars.map (·.data.toNat)).headD 0 := by cases chars <;> rfl
  rw [hlength, hfirst]
  refine ⟨hsum, ?_⟩
  obtain ⟨c, hb, rfl⟩ | ⟨r, c, hb, rfl⟩ | ⟨m, l, lh, ll, ph, pl, f, c, st, hb, rfl⟩ := hcases
  · rw [hb]
    exact ⟨rfl, nofun, fun _ => command_of_fits hfits (.inl rfl)⟩
  · rw [hb]
    exact ⟨rfl, nofun, fun _ => command_of_fits hfits (.inr ⟨_, rfl⟩)⟩
  · rw [hb]
    refine ⟨rfl, fun _ n hk => ?_, nofun⟩
    rw [hk] at hfits
    cases hfits

theorem readAnswer?_eq_none (h : ∀ ans, readAnswer? k chars ≠ some ans) : readAnswer? k chars = none :=
  Option.eq_none_iff_forall_ne_some.2 h

/-! ## Bytes with a correct check (R75, R184) -/

theorem byte_toNat (b : Byte) : byte b.toNat = b := BitVec.ofNat_toNat 8 b

theorem readBytes?_refused {r b : Byte} (h : (0x81 + r.toNat + b.toNat) % 256 = 0) :
    readBytes? [0x81, r.toNat, b.toNat] = some (.refused r) := by
  have hsum : sumsToZero [0x81, r.toNat, b.toNat] = true := by simpa [sumsToZero, ← Nat.add_assoc] using h
  simp only [readBytes?, hsum, if_true, byte_toNat]

theorem readBytes?_status {m l lh ll ph pl f c : Byte}
    (h : (0x90 + m.toNat + l.toNat + lh.toNat + ll.toNat + ph.toNat + pl.toNat + f.toNat + c.toNat) % 256 = 0) :
    readBytes? [0x90, m.toNat, l.toNat, lh.toNat, ll.toNat, ph.toNat, pl.toNat, f.toNat, c.toNat] = some (.status
      { motion := readMotion m.toNat, last := readLast l.toNat, label := readLabel (lh.toNat * 256 + ll.toNat)
        position := readPosition (ph.toNat * 256 + pl.toNat), code := f }) := by
  have hsum : sumsToZero
      [0x90, m.toNat, l.toNat, lh.toNat, ll.toNat, ph.toNat, pl.toNat, f.toNat, c.toNat] = true := by
    simpa [sumsToZero, ← Nat.add_assoc] using h
  simp only [readBytes?, hsum, if_true, byte_toNat]

/-! ## The fields of a STATUS answer (R75, R185) -/

theorem readMotion_eq (n : Nat) :
    readMotion n = if n = 0 then .idle else if n = 1 then .moving else if n = 2 then .done else .fault := by
  match n with
  | 0 => rfl
  | 1 => rfl
  | 2 => rfl
  | n + 3 => rfl

theorem readLabel_bin (b : BinNo) : readLabel b.val = .bin b := by
  simp only [readLabel, bin?, index?_val]

theorem readLabel_above {n : Nat} (h : 0x800 < n) : readLabel n = .unreadable := by
  simp only [readLabel, bin?, index?_of_le h.le, if_neg h.ne']

theorem readPosition_above {n : Nat} (h : 0x201 < n) : readPosition n = none := by
  have hport : 0x200 < n := Nat.lt_of_succ_lt h
  rw [readPosition, if_neg (by omega), if_neg hport.ne', if_neg h.ne']

theorem answerLength_none {n : Nat} (hack : n ≠ 0x80) (hrefused : n ≠ 0x81) (hstatus : n ≠ 0x90) : answerLength n = none := by
  unfold answerLength
  split
  · contradiction
  · contradiction
  · contradiction
  · rfl

/-- Settles O21: the message and its check, then the answers that are read, and the reading of each field. -/
theorem linkMessagesAreBuiltAndRead : Obligations.LinkMessagesAreBuiltAndRead := by
  refine ⟨⟨fun k a => ?message, by decide⟩, fun k chars hbad => ?bad, fun k bytes hsum => ?sum, fun k chars hlength => ?length,
    ⟨rfl, rfl, rfl, fun n => answerLength_none⟩, fun m chars hstatus => ?status, fun k chars hk hcommand => ?command,
    fun m b hb => ?ack, fun m r b hsum => ?refused, fun k m l lh ll ph pl f c hk hsum => ?fields, readMotion_eq,
    fun n => rfl, readLabel_bin, rfl, fun n => readLabel_above, fun n h => if_pos h, rfl, rfl, fun n => readPosition_above⟩
  case message =>
    intro code args
    refine ⟨checkByte (code :: args.length :: args), checkByte_lt _, ?_, chars_eq k a⟩
    have hsum := sum_add_checkByte (code :: args.length :: args)
    rwa [List.sum_cons, List.sum_cons, ← Nat.add_assoc] at hsum
  case bad =>
    rw [readAnswer?, dataBytes?_of_bad hbad]
  case sum =>
    refine readAnswer?_eq_none fun ans h => hsum ?_
    obtain ⟨hzero, -⟩ := code_of_readAnswer? h
    rwa [data_of_bytes] at hzero
  case length =>
    refine readAnswer?_eq_none fun ans h => ?_
    obtain ⟨-, hcode, -⟩ := code_of_readAnswer? h
    exact hlength hcode
  case status =>
    refine readAnswer?_eq_none fun ans h => ?_
    obtain ⟨-, -, hno, -⟩ := code_of_readAnswer? h
    exact hno hstatus m rfl
  case command =>
    refine readAnswer?_eq_none fun ans h => ?_
    obtain ⟨-, -, -, hyes⟩ := code_of_readAnswer? h
    obtain ⟨m, hm⟩ := hyes hcommand
    exact hk m hm
  case ack =>
    refine readAnswer?_of_bytes (bytes := [0x80, b]) ?_ rfl
    rw [List.map_cons, List.map_cons, hb]
    rfl
  case refused =>
    exact readAnswer?_of_bytes (bytes := [0x81, r, b]) (readBytes?_refused hsum) rfl
  case fields =>
    exact readAnswer?_of_bytes (bytes := [0x90, m, l, lh, ll, ph, pl, f, c]) (readBytes?_status hsum) (fits_status hk _)

end Sys2Proof.Machine
end

section
/-! Motion commands and their answers, and what a fault does (R80, R83, R85). -/
namespace Sys2Proof.Machine

variable {s : State} {a : Aisle}

/-! ## The shuttle's record after an answer (R76, R77, R80) -/

theorem shuttle_putShuttle_self (s : State) (a : Aisle) (r : Shuttle) : (s.putShuttle a r).shuttle a = r :=
  (shuttle_putShuttle s a a r).trans (if_pos rfl)

theorem acceptCommand_eq (s : State) (a : Aisle) : s.acceptCommand a = s.putShuttle a { s.shuttle a with
    command := (s.shuttle a).command.map fun c => { c with mark := .accepted }
    deadline := match (s.shuttle a).command with | some c => if c.fire then none else some 120 | none => none } := by
  have hmark : s.markCommand a .accepted = s.putShuttle a { s.shuttle a with
      command := (s.shuttle a).command.map fun c => { c with mark := .accepted } } := rfl
  rw [State.acceptCommand, hmark, State.changeShuttle, putShuttle_putShuttle, shuttle_putShuttle_self]
  cases (s.shuttle a).command <;> rfl

/-! ## Faults (R83) -/

/-- The record of a shuttle that has faulted (R83). -/
def Shuttle.faultedWith (code : Byte) (r : Shuttle) : Shuttle :=
  { r with state := .faulted, faultCode := code, command := none, deadline := none }

/-- The withdrawal of what waits for a shuttle, told of its window (R83; log entry 15). -/
theorem win_withdrawStopped (s : State) (a : Aisle) :
    (s.slot a ≠ some .hostRevival → s.slot a ≠ some .resume → (s.withdrawStopped a).win = s.win)
      ∧ (s.slot a = some .resume → (s.withdrawStopped a).win = (s.endRequest .shuttleFaulted {}).win)
      ∧ (s.slot a = some .hostRevival → (s.withdrawStopped a).win = (s.endRequest .shuttleFaulted (s.faultedAnswer a)).win) := by
  refine ⟨fun hhost hresume => ?_, fun h => ?_, fun h => ?_⟩
  · cases h : s.slot a with
    | none => simp only [State.withdrawStopped, h]
    | some m =>
      simp only [State.withdrawStopped, h]
      cases m with
      | hostRevival => exact absurd h hhost
      | resume => exact absurd h hresume
      | command m fire => rfl
      | revival => rfl
  · simp only [State.withdrawStopped, h]
    rfl
  · simp only [State.withdrawStopped, h]
    rfl

/-- The first steps of a fault: the shuttle's record, and its message withdrawn (R83). -/
def State.faultWithdrawn (a : Aisle) (code : Byte) (s : State) : State :=
  (s.putShuttle a ((s.shuttle a).faultedWith code)).withdrawStopped a

theorem faultWithdrawn_frame (s : State) (a : Aisle) (code : Byte) : ∃ w, s.faultWithdrawn a code =
    { (s.putShuttle a ((s.shuttle a).faultedWith code)).setSlot a none with win := w } :=
  withdrawStopped_frame _ a

theorem shuttle_faultWithdrawn (s : State) (a : Aisle) (code : Byte) :
    (s.faultWithdrawn a code).shuttle a = (s.shuttle a).faultedWith code := by
  obtain ⟨w, hw⟩ := faultWithdrawn_frame s a code
  rw [hw]
  exact shuttle_putShuttle_self s a _

theorem currentOrder?_faultWithdrawn (s : State) (a : Aisle) (code : Byte) :
    (s.faultWithdrawn a code).currentOrder? a = s.currentOrder? a := by
  refine currentOrder?_congr (by rw [shuttle_faultWithdrawn]; rfl) ?_
  obtain ⟨w, hw⟩ := faultWithdrawn_frame s a code
  rw [hw]
  rfl

/-- All that a fault changes: the shuttle's record, its message, the request that waited on it, the order it was on, and the
fault record (R83). -/
theorem faultShuttle_eq (s : State) (a : Aisle) (code : Byte) : s.faultShuttle a code =
    { (s.putShuttle a ((s.shuttle a).faultedWith code)).setSlot a none with
      win := (s.faultWithdrawn a code).win
      ou.orders := ((s.faultWithdrawn a code).haltCurrent a .fault).ou.orders
      au.fault := some (captured (s.shuttleCapture .shuttleFault a (some code)) s.au.fault) } := by
  have hhalt : s.faultShuttle a code = ((s.faultWithdrawn a code).haltCurrent a .fault).capture
      (((s.faultWithdrawn a code).haltCurrent a .fault).shuttleCapture .shuttleFault a (some code)) := rfl
  obtain ⟨v, hv⟩ := haltCurrent_frame (s := s.faultWithdrawn a code) a .fault
  obtain ⟨w, hw⟩ := faultWithdrawn_frame s a code
  have hcapture : (s.faultWithdrawn a code).shuttleCapture .shuttleFault a (some code) =
      s.shuttleCapture .shuttleFault a (some code) :=
    shuttleCapture_congr (currentOrder?_faultWithdrawn s a code) (by rw [shuttle_faultWithdrawn]; rfl) .shuttleFault (some code)
  rw [hhalt, shuttleCapture_haltCurrent, hcapture, hv, hw]
  rfl

theorem shuttle_faultShuttle (s : State) (a b : Aisle) (code : Byte) : (s.faultShuttle a code).shuttle b =
    if a = b then (s.shuttle a).faultedWith code else s.shuttle b := by
  rw [faultShuttle_eq]
  exact shuttle_putShuttle s a b _

theorem slot_faultShuttle (s : State) (a b : Aisle) (code : Byte) :
    (s.faultShuttle a code).slot b = if a = b then none else s.slot b := by
  rw [faultShuttle_eq]
  exact slot_setSlot (s.putShuttle a _) a b none

/-- A fault changes the entry of the shuttle's current order alone, and halts it if it runs (R57, R83). -/
theorem order?_faultShuttle (s : State) (a : Aisle) (code : Byte) :
    (∀ o r st m, s.currentOrder? a = some (o, r) → r.stage = .run st → s.stageCommand? r st = some m →
        (s.faultShuttle a code).order? o = some (r.haltedIn st m .fault))
      ∧ (∀ o r h, s.currentOrder? a = some (o, r) → r.stage = .halted h → (s.faultShuttle a code).order? o = some r)
      ∧ ∀ o, (∀ r, s.currentOrder? a ≠ some (o, r)) → (s.faultShuttle a code).order? o = s.order? o := by
  have hcurrent := currentOrder?_faultWithdrawn s a code
  obtain ⟨w, hw⟩ := faultWithdrawn_frame s a code
  have htab : (s.faultWithdrawn a code).tab = s.tab := by rw [hw]; rfl
  have hentry (o : OrderNo) : (s.faultWithdrawn a code).order? o = s.order? o := by rw [hw]; rfl
  have hhalt (o : OrderNo) : (s.faultShuttle a code).order? o = ((s.faultWithdrawn a code).haltCurrent a .fault).order? o := rfl
  refine ⟨fun o r st m hc hst hm => ?_, fun o r h hc hst => ?_, fun o hno => ?_⟩
  · rw [hhalt, haltCurrent_of_run (hcurrent.trans hc) .fault hst ((stageCommand?_congr htab r st).trans hm), order?_putOrder,
      if_pos rfl]
  · rw [hhalt, haltCurrent_of_halted (hcurrent.trans hc) .fault hst, hentry]
    exact (currentOrder?_eq_some.1 hc).2
  · obtain h | ⟨q, r, st, m, hc, -, h⟩ := haltCurrent_cases (s := s.faultWithdrawn a code) a .fault
    · rw [hhalt, h, hentry]
    · have hne : q ≠ o := fun e => hno r (by rw [← hcurrent, hc, e])
      rw [hhalt, h, order?_putOrder, if_neg hne, hentry]

/-! ## The end of a motion command's exchange (R80, R85) -/

theorem commandResult_eq (s : State) (a : Aisle) (ans : Option LinkAnswer) : s.commandResult a ans = match ans with
    | none => State.silent a (s.putShuttle a { s.shuttle a with
        command := (s.shuttle a).command.map fun c => { c with mark := .unconfirmed } })
    | some (.refused reason) => (State.heard a (.refused reason) s).faultShuttle a reason
    | some other => (State.heard a other s).acceptCommand a := by
  cases ans with
  | none => rfl
  | some x => cases x <;> rfl

theorem parkAfterExchange_stays (h : s.zoneAlarm (zoneOf a) = false
    ∨ ¬ ((s.shuttle a).state = .busy ∧ ∀ c, (s.shuttle a).command = some c → c.fire = false)) :
    s.parkAfterExchange a = s := by
  rw [State.parkAfterExchange]
  by_cases hpark : s.zoneAlarm (zoneOf a) = true ∧ (s.shuttle a).state = .busy
  · obtain ⟨halarm, hbusy⟩ := hpark
    have hfire := h.resolve_left (ne_false_of_eq_true halarm)
    cases hc : (s.shuttle a).command with
    | none => exact absurd ⟨hbusy, fun c h => by simp [hc] at h⟩ hfire
    | some c =>
      cases hf : c.fire with
      | true => simp [hf]
      | false => exact absurd ⟨hbusy, fun d hd => by rwa [← Option.some.inj (hc.symm.trans hd)]⟩ hfire
  · exact if_neg (by simpa using hpark)

theorem placeFirePark_of_busy (h : (s.shuttle a).state = .busy) : s.placeFirePark a =
    (s.putShuttle a { s.shuttle a with command := some ⟨.park, .sent, true⟩, deadline := none }).setSlot a
      (some (.command .park true)) := by
  rw [State.placeFirePark, State.giveCommand, State.changeShuttle, shuttle_changeShuttle, if_pos rfl,
    State.changeShuttle, putShuttle_putShuttle, ← h]

theorem parkAfterExchange_parks (halarm : s.zoneAlarm (zoneOf a) = true) (hbusy : (s.shuttle a).state = .busy)
    (hfire : ∀ c, (s.shuttle a).command = some c → c.fire = false) : s.parkAfterExchange a =
      (s.putShuttle a { s.shuttle a with command := some ⟨.park, .sent, true⟩, deadline := none }).setSlot a
        (some (.command .park true)) := by
  rw [← placeFirePark_of_busy hbusy, State.parkAfterExchange, halarm, hbusy]
  cases hc : (s.shuttle a).command with
  | none => rfl
  | some c => simp [hfire c hc]

theorem zoneAlarm_of_still {t : State} (h : t.still = s.still) (z : ZoneNo) : t.zoneAlarm z = s.zoneAlarm z := by
  simp only [State.zoneAlarm, zoneState_of_still h]

section
variable {x : Exchange} {m : Motion} (hu : x.use = .full) (hk : x.kind = .command m) (ans : Option LinkAnswer)
include hu hk

theorem endExchange_command : s.endExchange x ans =
    (State.commandResult x.shuttle ans { s with alc.exchange := none }).parkAfterExchange x.shuttle := by
  rw [endExchange_full ans hu, hk]
  rfl

theorem endExchange_command_calm (hzone : s.zoneAlarm (zoneOf x.shuttle) = false) :
    s.endExchange x ans = State.commandResult x.shuttle ans { s with alc.exchange := none } := by
  rw [endExchange_command hu hk]
  exact parkAfterExchange_stays (.inl ((zoneAlarm_of_still (still_commandResult _ _ _) _).trans hzone))

end

/-- Settles O24: the answer's result by its kind, the fire PARK that may follow, and the fault's effects field by field. -/
theorem commandAnswerDecidesTheCommand : Obligations.CommandAnswerDecidesTheCommand := by
  refine ⟨fun s x m c hu hk hzone hc => ⟨?ack, fun reason => ⟨?refused, ?slot⟩, fun hsilence => ?silent⟩,
    fun s x m ans hu hk => ?ends, acceptCommand_eq, fun s a code => ?fault⟩
  case ack =>
    have hheard : (State.heard x.shuttle .ack { s with alc.exchange := none }).shuttle x.shuttle =
        { s.shuttle x.shuttle with silence := 0 } := shuttle_putShuttle_self { s with alc.exchange := none } _ _
    rw [endExchange_command_calm hu hk _ hzone, commandResult_eq]
    refine (congrArg (State.shuttle · x.shuttle) (acceptCommand_eq _ _)).trans ((shuttle_putShuttle_self _ _ _).trans ?_)
    rw [hheard, hc]
    rfl
  case refused =>
    have hheard : (State.heard x.shuttle (.refused reason) { s with alc.exchange := none }).shuttle x.shuttle =
        { s.shuttle x.shuttle with silence := 0 } := shuttle_putShuttle_self { s with alc.exchange := none } _ _
    rw [endExchange_command_calm hu hk _ hzone, commandResult_eq]
    refine (shuttle_faultShuttle _ _ _ _).trans ((if_pos rfl).trans ?_)
    rw [hheard]
    rfl
  case slot =>
    rw [endExchange_command_calm hu hk _ hzone]
    exact (slot_faultShuttle _ _ _ _).trans (if_pos rfl)
  case silent =>
    rw [endExchange_command_calm hu hk _ hzone, commandResult_eq]
    have hmark := shuttle_putShuttle_self { s with alc.exchange := none } x.shuttle { s.shuttle x.shuttle with
      command := (s.shuttle x.shuttle).command.map fun c => { c with mark := .unconfirmed } }
    have hcount : min 3 ((s.shuttle x.shuttle).silence + 1) = (s.shuttle x.shuttle).silence + 1 := by omega
    refine (congrArg (State.shuttle · x.shuttle) (silent_counts (.inl ?_))).trans ((shuttle_putShuttle_self _ _ _).trans ?_)
    · exact (congrArg Shuttle.silence hmark).trans_lt (Nat.lt_of_succ_lt_succ hsilence)
    · refine (congrArg (fun q => { q with silence := min 3 (q.silence + 1) }) hmark).trans ?_
      rw [hc, hcount]
      rfl
  case ends =>
    intro a f u parks
    have hresult : u = f.commandResult a ans := (commandResult_eq f a ans).symm
    have hzone : u.zoneAlarm (zoneOf a) = s.zoneAlarm (zoneOf a) := by
      rw [hresult]
      exact zoneAlarm_of_still (still_commandResult f a ans) _
    rw [endExchange_command hu hk, ← hzone]
    change (_ → (f.commandResult a ans).parkAfterExchange a = u) ∧ (_ → _ → (f.commandResult a ans).parkAfterExchange a = _)
    rw [← hresult]
    exact ⟨parkAfterExchange_stays, fun halarm ⟨hbusy, hfire⟩ => parkAfterExchange_parks halarm hbusy hfire⟩
  case fault =>
    obtain ⟨hrun, hhalted, hother⟩ := order?_faultShuttle s a code
    have hwin := win_withdrawStopped (s.putShuttle a ((s.shuttle a).faultedWith code)) a
    refine ⟨(shuttle_faultShuttle s a a code).trans (if_pos rfl), (slot_faultShuttle s a a code).trans (if_pos rfl),
      fun b hb => ⟨(shuttle_faultShuttle s a b code).trans (if_neg hb.symm),
        (slot_faultShuttle s a b code).trans (if_neg hb.symm)⟩, hrun, hhalted, hother, ?_⟩
    have hfault := congrArg (fun t : State => t.au.fault) (faultShuttle_eq s a code)
    rw [shuttleCapture_eq] at hfault
    rw [State.faultedAnswer, shuttle_putShuttle_self] at hwin
    have htab : (s.faultShuttle a code).tab = s.tab := by rw [faultShuttle_eq]; rfl
    have hwindow : (s.faultShuttle a code).win = (s.faultWithdrawn a code).win := by rw [faultShuttle_eq]
    rw [hwindow]
    exact ⟨htab, hfault, hwin⟩

end Sys2Proof.Machine
end

section
/-! The polls of BUSY shuttles: what an answer makes of the command in flight, and its completion (R79 to R81, R84, R85). -/
namespace Sys2Proof.Machine

variable {s : State} {a : Aisle} {c : InFlight} {st : StatusAnswer}

/-! ## The reading of an answer (R76, R80) -/

/-- The record of a shuttle that has given a STATUS answer (R76, R77). -/
def Shuttle.heardStatus (st : StatusAnswer) (r : Shuttle) : Shuttle :=
  { r with
    silence := 0
    position := match st.position with
      | some p => p
      | none => r.position }

theorem heard_status (s : State) (a : Aisle) (st : StatusAnswer) :
    s.heard a (.status st) = s.putShuttle a ((s.shuttle a).heardStatus st) := rfl

theorem shuttle_heard_status (s : State) (a : Aisle) (st : StatusAnswer) :
    (s.heard a (.status st)).shuttle a = (s.shuttle a).heardStatus st := shuttle_putShuttle_self s a _

theorem position_heardStatus (r : Shuttle) : (∀ p, st.position = some p → (r.heardStatus st).position = p)
    ∧ (st.position = none → (r.heardStatus st).position = r.position) :=
  ⟨fun p h => by simp only [Shuttle.heardStatus, h], fun h => by simp only [Shuttle.heardStatus, h]⟩

theorem atTarget_iff (st : StatusAnswer) (m : Motion) : st.atTarget m = true ↔
    (∀ n, m = .travel n → st.position = some (.rack n)) ∧ (m = .park → st.position = some .park) := by
  cases m <;> simp [StatusAnswer.atTarget]

theorem shows_iff (st : StatusAnswer) (m : Motion) : st.shows m = true ↔ st.last = some m.code
    ∧ (st.motion = .done → (∀ n, m = .travel n → st.position = some (.rack n)) ∧ (m = .park → st.position = some .park)) := by
  rw [← atTarget_iff]
  by_cases hdone : st.motion = .done <;> simp [StatusAnswer.shows, hdone]

/-! ## The poll's result by the command's mark (R79 to R81) -/

theorem pollResult_of_fault (h : st.motion = .fault) :
    s.pollResult a (some (.status st)) = (s.heard a (.status st)).faultShuttle a st.code := by
  simp only [State.pollResult]
  (repeat' split) <;> simp only [State.pollWaiting, State.pollUnconfirmed, State.pollAccepted, h]

theorem pollResult_of_none (hc : (s.shuttle a).command = none) (h : st.motion ≠ .fault) :
    s.pollResult a (some (.status st)) = s.heard a (.status st) := by
  have hheard : ((s.heard a (.status st)).shuttle a).command = none := by rw [shuttle_heard_status]; exact hc
  simp only [State.pollResult, hheard, State.pollWaiting]

section
variable (hc : (s.shuttle a).command = some c)
include hc

theorem command_heard_status : ((s.heard a (.status st)).shuttle a).command = some c := by
  rw [shuttle_heard_status]
  exact hc

theorem pollResult_of_sent (hm : c.mark = .sent) (h : st.motion ≠ .fault) :
    s.pollResult a (some (.status st)) = s.heard a (.status st) := by
  simp only [State.pollResult, command_heard_status hc, hm, State.pollWaiting]

theorem pollResult_of_accepted (hm : c.mark = .accepted) :
    s.pollResult a (some (.status st)) = (s.heard a (.status st)).pollAccepted a c st := by
  simp only [State.pollResult, command_heard_status hc, hm]

theorem pollResult_of_unconfirmed (hm : c.mark = .unconfirmed) :
    s.pollResult a (some (.status st)) = (s.heard a (.status st)).pollUnconfirmed a c st := by
  simp only [State.pollResult, command_heard_status hc, hm]

end

theorem pollAccepted_cases (s : State) (a : Aisle) (c : InFlight) (st : StatusAnswer) (h : st.motion ≠ .fault) :
    (st.shows c.motion = true → st.motion = .moving → s.pollAccepted a c st = s)
      ∧ (st.shows c.motion = true → st.motion = .done → s.pollAccepted a c st = s.completeCommand a c st.label)
      ∧ (st.shows c.motion = false ∨ st.motion = .idle → s.pollAccepted a c st = s.faultShuttle a 0) := by
  refine ⟨fun hshows hm => ?_, fun hshows hm => ?_, fun hnot => ?_⟩
  · simp only [State.pollAccepted, hm, hshows, if_true]
  · simp only [State.pollAccepted, hm, hshows, if_true]
  · cases hm : st.motion with
    | fault => exact absurd hm h
    | idle => simp only [State.pollAccepted, hm]
    | moving | done =>
      have hshows := hnot.resolve_right (by simp [hm])
      simp [State.pollAccepted, hm, hshows]

theorem pollUnconfirmed_cases (s : State) (a : Aisle) (c : InFlight) (st : StatusAnswer) (h : st.motion ≠ .fault) :
    (st.shows c.motion = true → st.motion = .moving → s.pollUnconfirmed a c st = s.acceptCommand a)
      ∧ (st.shows c.motion = true → st.motion = .done → s.pollUnconfirmed a c st = s.completeCommand a c st.label)
      ∧ (st.shows c.motion = false ∨ st.motion = .idle → s.pollUnconfirmed a c st = s.sendAgain a c) := by
  refine ⟨fun hshows hm => ?_, fun hshows hm => ?_, fun hnot => ?_⟩
  · simp only [State.pollUnconfirmed, hm, hshows, if_true]
  · simp only [State.pollUnconfirmed, hm, hshows, if_true]
  · cases hm : st.motion with
    | fault => exact absurd hm h
    | idle => simp only [State.pollUnconfirmed, hm]
    | moving | done =>
      have hshows := hnot.resolve_right (by simp [hm])
      simp [State.pollUnconfirmed, hm, hshows]

/-! ## A command that was not taken (R80, R85) -/

theorem sendAgain_withdrawn (hport : c.motion.atPort = true) (hzone : s.zoneState 3 ≠ .normal) :
    s.sendAgain a c = s.withdrawPortCommand a := by
  have hhall : s.hallNormal = false := Bool.eq_false_iff.2 fun hnormal => hzone (zoneNormal_iff.1 hnormal)
  simp [State.sendAgain, hport, hhall]

theorem sendAgain_placed (h : c.motion.atPort = false ∨ s.zoneState 3 = .normal) :
    s.sendAgain a c = (s.markCommand a .sent).setSlot a (some (.command c.motion c.fire)) := by
  refine if_neg fun hheld => ?_
  obtain ⟨hport, hhall⟩ := Bool.and_eq_true_iff.1 hheld
  rcases h with hno | hzone
  · exact Bool.false_ne_true (hno.symm.trans hport)
  · rw [show s.hallNormal = true from zoneNormal_iff.2 hzone] at hhall
    exact Bool.false_ne_true hhall

theorem sendAgain_placed_reads (hc : (s.shuttle a).command = some c) (h : c.motion.atPort = false ∨ s.zoneState 3 = .normal) :
    (s.sendAgain a c).slot a = some (.command c.motion c.fire)
      ∧ ((s.sendAgain a c).shuttle a).command = some { c with mark := .sent } := by
  rw [sendAgain_placed h]
  refine ⟨(slot_setSlot _ a a _).trans (if_pos rfl), ?_⟩
  exact (congrArg Shuttle.command (shuttle_putShuttle_self s a _)).trans
    (congrArg (Option.map fun c => { c with mark := CommandMark.sent }) hc)

/-- A withdrawn command leaves the slot empty and the shuttle without it (R85; log entry 22). -/
theorem withdrawPortCommand_frame (s : State) (a : Aisle) : ∃ v, s.withdrawPortCommand a =
    { (s.setSlot a none).putShuttle a { s.shuttle a with command := none, deadline := none } with ou.orders := v } := by
  have hclear : (s.setSlot a none).clearCommand a =
    (s.setSlot a none).putShuttle a { s.shuttle a with command := none, deadline := none } := rfl
  rw [State.withdrawPortCommand, hclear]
  (repeat' split) <;> exact ⟨_, rfl⟩

theorem withdrawPortCommand_reads (s : State) (a : Aisle) : (s.withdrawPortCommand a).slot a = none
    ∧ ((s.withdrawPortCommand a).shuttle a).command = none ∧ ((s.withdrawPortCommand a).shuttle a).deadline = none := by
  obtain ⟨v, hv⟩ := withdrawPortCommand_frame s a
  have hshuttle := shuttle_putShuttle_self (s.setSlot a none) a { s.shuttle a with command := none, deadline := none }
  rw [hv]
  exact ⟨(slot_setSlot s a a none).trans (if_pos rfl), congrArg Shuttle.command hshuttle, congrArg Shuttle.deadline hshuttle⟩

/-! ## Completions (R81, R84) -/

theorem clearCommand_eq (s : State) (a : Aisle) :
    s.clearCommand a = s.putShuttle a { s.shuttle a with command := none, deadline := none } := rfl

theorem currentOrder?_clearCommand (s : State) (a : Aisle) : (s.clearCommand a).currentOrder? a = s.currentOrder? a := by
  refine currentOrder?_congr ?_ rfl
  rw [clearCommand_eq, shuttle_putShuttle_self]

theorem completeCommand_of_park (hm : c.motion = .park) (label : Label) :
    s.completeCommand a c label = (s.clearCommand a).parkDone a c.fire := by
  simp only [State.completeCommand, hm]

section
variable (hm : c.motion ≠ .park) (label : Label)
include hm

theorem completeCommand_of_no_order (hno : s.currentOrder? a = none) : s.completeCommand a c label = s.clearCommand a := by
  simp only [State.completeCommand, currentOrder?_clearCommand, hno]

variable {o : OrderNo} {r : Order} (hc : s.currentOrder? a = some (o, r))
include hc

theorem completeCommand_of_run {stage : RunStage} (hst : r.stage = .run stage) :
    s.completeCommand a c label = (s.clearCommand a).stageDone a o r stage label := by
  simp only [State.completeCommand, currentOrder?_clearCommand, hc, hst]

theorem completeCommand_of_stopped (hst : ∀ stage, r.stage ≠ .run stage) :
    s.completeCommand a c label = s.clearCommand a := by
  simp only [State.completeCommand, currentOrder?_clearCommand, hc]

end

theorem parkDone_stays (h : c.fire = true ∨ s.ou.quiet ≠ .active) : (s.clearCommand a).parkDone a c.fire =
    s.putShuttle a { s.shuttle a with state := .parked, command := none, deadline := none } := by
  have hquiet : (s.clearCommand a).ou.quiet = s.ou.quiet := rfl
  rw [State.parkDone, hquiet, if_pos (by simpa using h), State.changeShuttle, clearCommand_eq, putShuttle_putShuttle,
    shuttle_putShuttle_self]

theorem parkDone_idle (hfire : c.fire = false) (hquiet : s.ou.quiet = .active) : (s.clearCommand a).parkDone a c.fire =
    s.putShuttle a { s.shuttle a with state := .idle, order := none, command := none, deadline := none } := by
  have hq : (s.clearCommand a).ou.quiet = .active := hquiet
  rw [State.parkDone, hq, hfire, if_neg (by decide), State.goIdle, State.changeShuttle, clearCommand_eq, putShuttle_putShuttle,
    shuttle_putShuttle_self]

/-- Settles O25: the answer against the command's mark, then the completion by its motion and the order it belongs to. -/
theorem pollAnswerDrivesTheMotion : Obligations.PollAnswerDrivesTheMotion := by
  refine ⟨fun s x st hu hk => ?answer, fun s a c label =>
    ⟨fun hm o r hc => ⟨fun stage hst => completeCommand_of_run hm label hc hst,
        fun hst => completeCommand_of_stopped hm label hc hst⟩,
      fun hm hno => completeCommand_of_no_order hm label hno,
      fun hm h => (completeCommand_of_park hm label).trans (parkDone_stays h),
      fun hm hfire hquiet => (completeCommand_of_park hm label).trans (parkDone_idle hfire hquiet)⟩⟩
  intro a h t
  let f : State := { s with alc.exchange := none }
  have ht : t = f.pollResult a (some (.status st)) := by
    rw [show t = _ from endExchange_full _ hu, hk]
    rfl
  have hshuttle : h.shuttle a = (s.shuttle a).heardStatus st := shuttle_heard_status f a st
  obtain ⟨hposition, hstays⟩ := position_heardStatus (st := st) (s.shuttle a)
  rw [ht, hshuttle]
  refine ⟨rfl, hposition, hstays, pollResult_of_fault, fun hm hno => pollResult_of_none hno hm, fun c hc =>
    ⟨fun hmark hm => ?_, fun hmark hm => ?_, shows_iff st c.motion, fun hmark hm => pollResult_of_sent hc hmark hm⟩⟩
  · rw [pollResult_of_accepted (s := f) hc hmark]
    exact pollAccepted_cases h a c st hm
  · rw [pollResult_of_unconfirmed (s := f) hc hmark]
    obtain ⟨hmoving, hdone, hagain⟩ := pollUnconfirmed_cases h a c st hm
    refine ⟨hmoving, hdone, fun hnot => ?_⟩
    rw [show (f.heard a (.status st)).pollUnconfirmed a c st = h.sendAgain a c from hagain hnot]
    refine ⟨fun hport hzone => ?_, fun hfree => sendAgain_placed_reads (command_heard_status hc) hfree⟩
    rw [sendAgain_withdrawn (s := h) hport hzone]
    exact ⟨rfl, withdrawPortCommand_reads h a⟩

end Sys2Proof.Machine
end

section
/-! No result of an exchange begins another one: the link stays free until the arbiter grants it (R76). -/
namespace Sys2Proof.Machine

variable (s : State) (a : Aisle)

/-! ## Completions (R43, R51 to R56, R81) -/

@[simp] theorem exchange_dropCurrent (o : OrderNo) : (s.dropCurrent a o).alc.exchange = s.alc.exchange := by
  unfold State.dropCurrent
  split
  · rfl
  · rfl

@[simp] theorem exchange_finishOrder (o : OrderNo) (out : Outcome) :
    (s.finishOrder o out).alc.exchange = s.alc.exchange := by
  cases h : s.order? o with
  | none => simp only [State.finishOrder, h]
  | some r => rw [finishOrder_eq h, exchange_dropCurrent]

@[simp] theorem exchange_finishIdle (o : OrderNo) (out : Outcome) :
    (s.finishIdle a o out).alc.exchange = s.alc.exchange := exchange_finishOrder (s.goIdle a) o out

@[simp] theorem exchange_enterStage (o : OrderNo) (r : Order) (st : RunStage) (m : Motion) :
    (s.enterStage a o r st m).alc.exchange = s.alc.exchange := rfl

@[simp] theorem alc_setPlace (b : BinNo) (p : Place) : (s.setPlace b p).alc = s.alc := rfl

@[simp] theorem alc_unsettle (b : BinNo) : (s.unsettle b).alc = s.alc := rfl

@[simp] theorem exchange_board (b : BinNo) : (s.board a b).alc.exchange = s.alc.exchange := rfl

@[simp] theorem exchange_unboard (b : BinNo) (p : Place) : (s.unboard a b p).alc.exchange = s.alc.exchange := rfl

theorem exchange_liftDone (o : OrderNo) (r : Order) (label : Label) :
    (s.liftDone a o r label).alc.exchange = s.alc.exchange := by
  unfold State.liftDone
  (repeat' split) <;> simp

theorem exchange_probeDone (o : OrderNo) (r : Order) (label : Label) :
    (s.probeDone a o r label).alc.exchange = s.alc.exchange := by
  unfold State.probeDone
  (repeat' split) <;> simp

theorem exchange_lowerDone (o : OrderNo) (r : Order) : (s.lowerDone a o r).alc.exchange = s.alc.exchange := by
  unfold State.lowerDone
  split <;> simp

theorem exchange_toPortDone (o : OrderNo) (r : Order) : (s.toPortDone a o r).alc.exchange = s.alc.exchange := by
  unfold State.toPortDone
  (repeat' split) <;> rfl

theorem exchange_seekDone (o : OrderNo) (r : Order) : (s.seekDone a o r).alc.exchange = s.alc.exchange := by
  unfold State.seekDone
  (repeat' split) <;> simp

theorem exchange_stageDone (o : OrderNo) (r : Order) (st : RunStage) (label : Label) :
    (s.stageDone a o r st label).alc.exchange = s.alc.exchange := by
  cases st with
  | seeking => exact exchange_seekDone s a o r
  | lifting => exact exchange_liftDone s a o r label
  | carrying => exact exchange_toPortDone s a o r
  | holding => exact exchange_toPortDone s a o r
  | lowering => exact exchange_lowerDone s a o r
  | probing => exact exchange_probeDone s a o r label
  | queued | handing | waitingLane | crossing | takingOn | returning => rfl

theorem exchange_completeCommand (c : InFlight) (label : Label) :
    (s.completeCommand a c label).alc.exchange = s.alc.exchange := by
  by_cases hm : c.motion = .park
  · rw [completeCommand_of_park hm, State.parkDone]
    split <;> rfl
  · cases hc : s.currentOrder? a with
    | none => rw [completeCommand_of_no_order hm label hc, clearCommand_eq, State.putShuttle_alc_exchange]
    | some q =>
      obtain ⟨o, r⟩ := q
      cases hst : r.stage with
      | run stage => rw [completeCommand_of_run hm label hc hst, exchange_stageDone, clearCommand_eq, State.putShuttle_alc_exchange]
      | halted _ | finished _ =>
        rw [completeCommand_of_stopped hm label hc (by simp [hst]), clearCommand_eq, State.putShuttle_alc_exchange]

/-! ## Silences, faults and commands (R77, R80 to R85) -/

theorem exchange_faultShuttle (code : Byte) : (s.faultShuttle a code).alc.exchange = s.alc.exchange := by
  rw [faultShuttle_eq]
  rfl

theorem exchange_silent : (s.silent a).alc.exchange = s.alc.exchange := by
  by_cases h : (s.shuttle a).silence < 2 ∨ (s.shuttle a).state = .offline ∨ (s.shuttle a).state = .caught
  · rw [silent_counts h, State.putShuttle_alc_exchange]
  · simp only [not_or, not_lt] at h
    obtain ⟨h2, hoffline, hcaught⟩ := h
    obtain ⟨w, hw⟩ := silent_stops h2 hoffline hcaught
    rw [hw, alc_stopOrder]
    rfl

theorem exchange_heard (x : LinkAnswer) : (s.heard a x).alc.exchange = s.alc.exchange := by
  obtain ⟨r, hr⟩ := heard_eq (s := s) a x
  rw [hr, State.putShuttle_alc_exchange]

theorem exchange_acceptCommand : (s.acceptCommand a).alc.exchange = s.alc.exchange := rfl

theorem exchange_commandResult (ans : Option LinkAnswer) : (s.commandResult a ans).alc.exchange = s.alc.exchange := by
  match ans with
  | none => exact exchange_silent (s.markCommand a .unconfirmed) a
  | some (.refused reason) => exact (exchange_faultShuttle _ a reason).trans (exchange_heard s a _)
  | some .ack => exact (exchange_acceptCommand _ a).trans (exchange_heard s a _)
  | some (.status st) => exact (exchange_acceptCommand _ a).trans (exchange_heard s a _)

theorem exchange_parkAfterExchange : (s.parkAfterExchange a).alc.exchange = s.alc.exchange := by
  unfold State.parkAfterExchange
  (repeat' split) <;> rfl

theorem exchange_sendAgain (c : InFlight) : (s.sendAgain a c).alc.exchange = s.alc.exchange := by
  unfold State.sendAgain
  split
  · obtain ⟨v, hv⟩ := withdrawPortCommand_frame s a
    rw [hv]
    rfl
  · rfl

theorem exchange_pollWaiting (st : StatusAnswer) : (s.pollWaiting a st).alc.exchange = s.alc.exchange := by
  unfold State.pollWaiting
  split
  · exact exchange_faultShuttle s a st.code
  · rfl

theorem exchange_pollUnconfirmed (c : InFlight) (st : StatusAnswer) :
    (s.pollUnconfirmed a c st).alc.exchange = s.alc.exchange := by
  unfold State.pollUnconfirmed
  (repeat' split)
  · exact exchange_faultShuttle s a st.code
  · exact exchange_acceptCommand s a
  · exact exchange_sendAgain s a c
  · exact exchange_completeCommand s a c st.label
  · exact exchange_sendAgain s a c
  · exact exchange_sendAgain s a c

theorem exchange_pollAccepted (c : InFlight) (st : StatusAnswer) :
    (s.pollAccepted a c st).alc.exchange = s.alc.exchange := by
  unfold State.pollAccepted
  (repeat' split)
  · exact exchange_faultShuttle s a st.code
  · rfl
  · exact exchange_faultShuttle s a 0
  · exact exchange_completeCommand s a c st.label
  · exact exchange_faultShuttle s a 0
  · exact exchange_faultShuttle s a 0

theorem exchange_pollResult (ans : Option LinkAnswer) : (s.pollResult a ans).alc.exchange = s.alc.exchange := by
  match ans with
  | none => exact exchange_silent s a
  | some .ack => exact exchange_silent s a
  | some (.refused reason) => exact exchange_silent s a
  | some (.status st) =>
    have hheard := exchange_heard s a (.status st)
    simp only [State.pollResult]
    split
    · split
      · exact (exchange_pollWaiting _ a st).trans hheard
      · exact (exchange_pollUnconfirmed _ a _ st).trans hheard
      · exact (exchange_pollAccepted _ a _ st).trans hheard
    · exact (exchange_pollWaiting _ a st).trans hheard

/-! ## Revivals and RESUME ORDER (R59, R88, R153) -/

@[simp] theorem exchange_loseCarried : (s.loseCarried a).alc.exchange = s.alc.exchange := by
  unfold State.loseCarried
  split <;> rfl

@[simp] theorem exchange_loseOther (b : BinNo) : (s.loseOther a b).alc.exchange = s.alc.exchange := by
  unfold State.loseOther
  split
  · rfl
  · exact exchange_loseCarried s a

@[simp] theorem exchange_rejectLabel (b : BinNo) (o : Option OrderNo) :
    (s.rejectLabel a b o).alc.exchange = s.alc.exchange := rfl

@[simp] theorem alc_unsettleFree (b : BinNo) : (s.unsettleFree b).alc = s.alc := rfl

theorem alc_makeRestore (b : BinNo) : (s.makeRestore a b).2.alc = s.alc := by
  unfold State.makeRestore
  split
  · rename_i o _
    obtain ⟨q, hq⟩ := placeOrder_frame (s := s) o (plainOrder .restore .recovery b a 3 .queued none)
    rw [hq]
    rfl
  · rfl

theorem exchange_acceptLabel (b : BinNo) (kept : Bool) : (s.acceptLabel a b kept).2.alc.exchange = s.alc.exchange := by
  have hboard : (((s.loseOther a b).goIdle a).board a b).alc.exchange = s.alc.exchange := exchange_loseOther s a b
  cases kept with
  | true => exact hboard
  | false => exact (congrArg LinkUnit.exchange (alc_makeRestore _ a b)).trans hboard

theorem exchange_reviveWithBin (b : BinNo) : (s.reviveWithBin a b).2.alc.exchange = s.alc.exchange := by
  unfold State.reviveWithBin
  (repeat' split) <;> simp [exchange_acceptLabel]

theorem exchange_reviveAtRest (st : StatusAnswer) : (s.reviveAtRest a st).2.alc.exchange = s.alc.exchange := by
  unfold State.reviveAtRest
  (repeat' split)
  · exact exchange_loseCarried s a
  · exact exchange_loseCarried s a
  · exact exchange_loseCarried s a
  · exact exchange_reviveWithBin s a _

theorem exchange_revive (ans : Option LinkAnswer) : (s.revive a ans).2.alc.exchange = s.alc.exchange := by
  unfold State.revive
  (repeat' split)
  · exact exchange_heard s a _
  · exact exchange_heard s a _
  · exact (exchange_reviveAtRest _ a _).trans (exchange_heard s a _)
  · rfl

theorem exchange_followCourse (o : OrderNo) (r : Order) (h : Restart) (c : Course) (label : Label) :
    (s.followCourse a o r h c label).alc.exchange = s.alc.exchange := by
  cases c with
  | nextStep => exact exchange_stageDone _ a o _ h.stageAt label
  | countedDone => exact exchange_stageDone _ a o _ h.stageAt label
  | repeated => rfl
  | stillRunning => rfl

theorem exchange_resumeWith (o : OrderNo) (st : StatusAnswer) : (s.resumeWith a o st).alc.exchange = s.alc.exchange := by
  simp only [State.resumeWith]
  split
  · rfl
  · split
    · split
      · rfl
      · exact exchange_followCourse s a o _ _ _ st.label
    · rfl

theorem exchange_resumeResult (ans : Option LinkAnswer) : (s.resumeResult a ans).alc.exchange = s.alc.exchange := by
  match ans with
  | none => exact exchange_silent s a
  | some .ack => exact exchange_silent s a
  | some (.refused reason) => exact exchange_silent s a
  | some (.status st) =>
    have hheard := exchange_heard s a (.status st)
    simp only [State.resumeResult]
    split
    · exact hheard
    · split
      · exact (exchange_resumeWith _ a _ st).trans hheard
      · exact hheard

/-! ## Every result (R76) -/

theorem exchange_applyResult (k : ExchangeKind) (ans : Option LinkAnswer) :
    (s.applyResult a k ans).alc.exchange = s.alc.exchange := by
  cases k with
  | command m => exact (exchange_parkAfterExchange _ a).trans (exchange_commandResult s a ans)
  | busyPoll => exact exchange_pollResult s a ans
  | offlinePoll => exact exchange_revive s a ans
  | revival =>
    have hrevive := exchange_revive s a ans
    simp only [State.applyResult, State.revivalResult]
    split <;> exact hrevive
  | hostRevival =>
    have hrevive := exchange_revive s a ans
    simp only [State.applyResult, State.hostRevivalResult]
    split <;> exact hrevive
  | resume => exact exchange_resumeResult s a ans

theorem exchange_countOnly (ans : Option LinkAnswer) : (s.countOnly a ans).alc.exchange = s.alc.exchange := by
  cases ans with
  | none => exact exchange_silent s a
  | some x => exact exchange_heard s a x

theorem exchange_refuseRequest (k : ExchangeKind) : (s.refuseRequest k).alc.exchange = s.alc.exchange := by
  cases k <;> rfl

theorem exchange_endExchange (x : Exchange) (ans : Option LinkAnswer) : (s.endExchange x ans).alc.exchange = none := by
  cases hu : x.use with
  | full => rw [endExchange_full ans hu, exchange_applyResult]
  | silenceAndPosition => rw [endExchange_limited ans hu, exchange_refuseRequest, exchange_countOnly]
  | discard => rw [endExchange_discarded ans hu, exchange_refuseRequest]

end Sys2Proof.Machine
end

section
/-! The ends of exchanges and of the link's waits (R73, R76, R79, R152). -/
namespace Sys2Proof.Machine

variable {s : State} {a : Aisle}

/-! ## The events while the part runs (R170) -/

section
variable (hp : s.phase = .running)
include hp

theorem exec_answerReceived (chars : List LinkChar) : exec (.answerReceived chars) s = .next (s.takeAnswer chars) :=
  congrArg _ (whenRunning_of_running hp (State.takeAnswer chars))

theorem exec_answerInvalid : exec .answerInvalid s = .next s.takeNoAnswer :=
  congrArg _ (whenRunning_of_running hp State.takeNoAnswer)

theorem exec_replyWindowExpiry : exec .replyWindowExpiry s = .next s.takeNoAnswer :=
  congrArg _ (whenRunning_of_running hp State.takeNoAnswer)

theorem exec_offlinePollDue (a : Aisle) : exec (.offlinePollDue a) s = .next (s.pollDue a) :=
  congrArg _ (whenRunning_of_running hp (State.pollDue a))

theorem exec_revivalRetryDue (a : Aisle) : exec (.revivalRetryDue a) s = .next (s.takeRevivalRetry a) :=
  congrArg _ (whenRunning_of_running hp (State.takeRevivalRetry a))

end

/-! ## The ends of an exchange (R76) -/

section
variable (h : s.alc.exchange = none)
include h

theorem takeAnswer_of_none (chars : List LinkChar) : s.takeAnswer chars = s := by
  simp only [State.takeAnswer, h]

theorem takeNoAnswer_of_none : s.takeNoAnswer = s := by
  simp only [State.takeNoAnswer, h]

end

section
variable {x : Exchange} (h : s.alc.exchange = some x)
include h

theorem takeAnswer_of_some (chars : List LinkChar) :
    s.takeAnswer chars = (s.endExchange x (readAnswer? x.kind chars)).settle := by
  simp only [State.takeAnswer, h]

theorem takeNoAnswer_of_some : s.takeNoAnswer = (s.endExchange x none).settle := by
  simp only [State.takeNoAnswer, h]

end

/-- Settles O23: each end with and without an exchange in progress; no result begins another exchange. -/
theorem exchangesEndByTheirAnswer : Obligations.ExchangesEndByTheirAnswer := by
  refine fun s chars ch => ⟨rfl, fun hp => ⟨fun h => ?idle, fun x h => ?ends⟩⟩
  case idle =>
    rw [exec_answerReceived hp, exec_answerInvalid hp, exec_replyWindowExpiry hp, takeAnswer_of_none h, takeNoAnswer_of_none h]
    exact ⟨rfl, rfl, rfl⟩
  case ends =>
    rw [exec_answerReceived hp, exec_answerInvalid hp, exec_replyWindowExpiry hp, takeAnswer_of_some h, takeNoAnswer_of_some h]
    exact ⟨fun ans hans => by rw [hans], fun hans => by rw [hans], rfl, rfl, exchange_endExchange s x⟩

/-! ## The ends of the waits (R79, R152) -/

theorem takeRevivalRetry_of_none (h : (s.shuttle a).revivalRetry = none) : s.takeRevivalRetry a = s := by
  simp only [State.takeRevivalRetry, h]

theorem takeRevivalRetry_of_some (h : (s.shuttle a).revivalRetry.isSome = true) :
    s.takeRevivalRetry a = (s.placeRevivalAgain a).settle := by
  obtain ⟨n, hn⟩ := Option.isSome_iff_exists.1 h
  simp only [State.takeRevivalRetry, hn]

/-- A revival is placed again for a PARKED shuttle with an empty slot, and its wait ends in each case (R152). -/
theorem placeRevivalAgain_eq (s : State) (a : Aisle) :
    let u := s.putShuttle a { s.shuttle a with revivalRetry := none }
    s.placeRevivalAgain a =
      if (s.shuttle a).state = .parked ∧ s.slot a = none then u.setSlot a (some .revival) else u := by
  intro u
  have hshuttle : u.shuttle a = { s.shuttle a with revivalRetry := none } := shuttle_putShuttle_self s a _
  have hstate : (u.shuttle a).state = (s.shuttle a).state := by rw [hshuttle]
  rw [← hstate]
  rfl

/-- Settles O27: the poll that comes due, and the revival that is placed again or not. -/
theorem pollAndRetryWaitsEnd : Obligations.PollAndRetryWaitsEnd := by
  intro s a hp
  rw [exec_offlinePollDue hp, exec_revivalRetryDue hp]
  refine ⟨rfl, fun h => congrArg _ (takeRevivalRetry_of_none h), fun h => ?_⟩
  rw [takeRevivalRetry_of_some h, placeRevivalAgain_eq]
  refine ⟨fun hparked hslot => by rw [if_pos ⟨hparked, hslot⟩], fun hnot => ?_⟩
  rw [if_neg fun ⟨hparked, hslot⟩ => hnot.elim (fun k => k hparked) fun k => k hslot]

end Sys2Proof.Machine
end

section
/-! A step: the command at the front of the queue, or one second of the clock (R69, R79, R94, R141, R152; log entry 1). -/
namespace Sys2Proof.Machine

variable {s : State}

/-! ## The countdowns -/

theorem zoneState_second (z : ZoneNo) : s.second.zoneState z = (s.zoneState z).tick :=
  congrArg Zone.state (mapRow_getElem Zone.tick s.fiu.zones z.val z.isLt)

theorem shuttle_second (a : Aisle) : s.second.shuttle a = (s.shuttle a).tick :=
  mapRow_getElem Shuttle.tick s.alc.shuttles a.val a.isLt

/-- A countdown that stands at 1 puts its expiry into the list of the commands that come due. -/
theorem mem_due {α : Type} {l : List α} {x : α} (hx : x ∈ l) {count : α → Option Nat} (h : count x = some 1) (expiry : α → Instr) :
    expiry x ∈ (l.filter fun y => dueNow (count y)).map expiry :=
  List.mem_map_of_mem (List.mem_filter.2 ⟨hx, by rw [h]; rfl⟩)

theorem pending_second_of_due {i : Instr} (h : i ∈ s.clockCommands) : i ∈ s.second.pending :=
  List.mem_append_right s.pending h

theorem mem_clockCommands {i : Instr} : i ∈ s.clockCommands ↔ i ∈ s.replyDue ∨ i ∈ s.zonesDue ∨ i ∈ s.motionsDue
    ∨ i ∈ s.crossingDue ∨ i ∈ s.retriesDue ∨ i ∈ s.pollsDue := by
  simp only [State.clockCommands, List.mem_append, or_assoc]

/-! ## One second, countdown by countdown -/

theorem second_zoneDeadline {z : ZoneNo} {n : Nat} (h : s.zoneState z = .alarm n) :
    s.second.zoneState z = .alarm (n - 1) ∧ (n = 1 → Instr.zoneDeadlineExpiry z ∈ s.second.pending) := by
  refine ⟨by rw [zoneState_second, h]; rfl, fun hn => pending_second_of_due (mem_clockCommands.2 (.inr (.inl ?_)))⟩
  refine mem_due (mem_zones z) ?_ Instr.zoneDeadlineExpiry
  rw [h, hn]
  rfl

section
variable {a : Aisle} {n : Nat}

theorem second_motionDeadline (h : (s.shuttle a).deadline = some n) : (s.second.shuttle a).deadline = some (n - 1)
    ∧ (n = 1 → Instr.motionDeadlineExpiry a ∈ s.second.pending) := by
  refine ⟨by simp [shuttle_second, Shuttle.tick, lower, h], fun hn => pending_second_of_due (mem_clockCommands.2 ?_)⟩
  exact .inr (.inr (.inl (mem_due (mem_aisles a) (by rw [h, hn]) Instr.motionDeadlineExpiry)))

theorem second_pollWait (h : (s.shuttle a).pollWait = some n) : (s.second.shuttle a).pollWait = some (n - 1)
    ∧ (n = 1 → Instr.offlinePollDue a ∈ s.second.pending) := by
  refine ⟨by simp [shuttle_second, Shuttle.tick, lower, h], fun hn => pending_second_of_due (mem_clockCommands.2 ?_)⟩
  exact .inr (.inr (.inr (.inr (.inr (mem_due (mem_aisles a) (by rw [h, hn]) Instr.offlinePollDue)))))

theorem second_revivalRetry (h : (s.shuttle a).revivalRetry = some n) : (s.second.shuttle a).revivalRetry = some (n - 1)
    ∧ (n = 1 → Instr.revivalRetryDue a ∈ s.second.pending) := by
  refine ⟨by simp [shuttle_second, Shuttle.tick, lower, h], fun hn => pending_second_of_due (mem_clockCommands.2 ?_)⟩
  exact .inr (.inr (.inr (.inr (.inl (mem_due (mem_aisles a) (by rw [h, hn]) Instr.revivalRetryDue)))))

theorem second_crossing {c : Crossing} (hc : s.lc.crossing = some c) (h : c.state = .running n) :
    s.second.lc.crossing = some { c with state := .running (n - 1) }
      ∧ (n = 1 → Instr.crossingDeadlineExpiry ∈ s.second.pending) := by
  refine ⟨(congrArg (Option.map Crossing.tick) hc).trans ?_, fun hn => pending_second_of_due (mem_clockCommands.2 ?_)⟩
  · simp only [Option.map_some, Crossing.tick, h]
  · have hdue : dueNow (s.lc.crossing.bind Crossing.countdown?) = true := by
      rw [hc, Option.bind_some, Crossing.countdown?, h, hn]
      rfl
    refine .inr (.inr (.inr (.inl ?_)))
    rw [State.crossingDue, if_pos hdue]
    exact List.mem_singleton_self _

theorem second_replyWindow {x : Exchange} (h : s.alc.exchange = some x) : Instr.replyWindowExpiry ∈ s.second.pending := by
  refine pending_second_of_due (mem_clockCommands.2 (.inl ?_))
  rw [State.replyDue, h]
  exact List.mem_singleton_self _

end

/-! ## Commands -/

/-- The spec stops the part nowhere: every command answers a next state. -/
theorem exec_next (i : Instr) (s : State) : ∃ t, exec i s = .next t := by
  cases i <;> exact ⟨_, rfl⟩

/-- Settles O56: the queue's front, the answer of every command, and the second of an empty queue, countdown by countdown. -/
theorem stepRunsFrontCommand : Obligations.StepRunsFrontCommand := by
  refine ⟨fun s c rest h => ?front, fun s i => exec_next i s, fun s h hp => ?starting, fun s h hp => ⟨s.second, ?second, rfl,
    rfl, rfl, rfl, rfl, rfl, fun z n => second_zoneDeadline, fun a n => second_motionDeadline, fun a n => second_pollWait,
    fun a n => second_revivalRetry, fun c n => second_crossing, fun x => second_replyWindow⟩⟩
  case front => rw [step, h]
  case starting => rw [step, h, State.idle, State.whenRunning, hp]
  case second => rw [step, h, State.idle, whenRunning_of_running hp]

end Sys2Proof.Machine
end

section
/-! The arbiter: what each class sends, what is granted, and how an exchange begins (R73, R76, R78, R79, R89). -/
namespace Sys2Proof.Machine

variable {s : State} {a : Aisle} {c : GrantClass}

/-! ## What each class sends (R78, R79) -/

theorem maySend_iff : s.maySend a = true ↔ s.zoneState (zoneOf a) ≠ .sealed ∧ (s.shuttle a).state ≠ .caught := by
  simp [State.maySend]

theorem isHalted_eq_false (r : Order) : r.isHalted = false ↔ ∀ h, r.stage ≠ .halted h := by
  cases hst : r.stage <;> simp [Order.isHalted, hst]

theorem haltedOrder_eq_false : s.haltedOrder a = false ↔ ∀ o r h, s.currentOrder? a = some (o, r) → r.stage ≠ .halted h := by
  cases hc : s.currentOrder? a with
  | none => simp [State.haltedOrder, hc]
  | some q =>
    simp only [State.haltedOrder, hc, isHalted_eq_false]
    exact ⟨fun hr o r h hq => by cases hq; exact hr h, fun hr h => hr q.1 q.2 h rfl⟩

theorem offlinePollDue_iff : s.offlinePollDue a = true ↔ s.slot a = none ∧ (s.shuttle a).state = .offline
    ∧ (s.shuttle a).pollWait = none ∧ s.zoneAlarm (zoneOf a) = false
    ∧ ∀ o r h, s.currentOrder? a = some (o, r) → r.stage ≠ .halted h := by
  rw [← haltedOrder_eq_false]
  simp only [State.offlinePollDue, Bool.and_eq_true, decide_eq_true_eq, Option.isNone_iff_eq_none, Bool.not_eq_true']
  tauto

section
variable (s a)

theorem sends_one_iff : s.sends .one a = true ↔ s.maySend a = true ∧ ∃ m, s.slot a = some (.command m true) := by
  rcases hslot : s.slot a with _ | ⟨m, _ | _⟩ | _ | _ | _ <;> simp [State.sends, hslot]

theorem sends_two_iff : s.sends .two a = true ↔ s.maySend a = true ∧ ∃ m, s.slot a = some (.command m false) := by
  rcases hslot : s.slot a with _ | ⟨m, _ | _⟩ | _ | _ | _ <;> simp [State.sends, hslot]

theorem sends_three_iff : s.sends .three a = true ↔ s.maySend a = true ∧ (s.slot a = some .revival
    ∨ s.slot a = some .hostRevival ∨ s.slot a = some .resume ∨ (s.slot a = none ∧ (s.shuttle a).state = .busy)) := by
  rcases hslot : s.slot a with _ | ⟨m, _ | _⟩ | _ | _ | _ <;> simp [State.sends, hslot]

theorem sends_four_iff : s.sends .four a = true ↔ s.maySend a = true ∧ s.offlinePollDue a = true := by
  rcases hslot : s.slot a with _ | ⟨m, _ | _⟩ | _ | _ | _ <;> simp [State.sends, State.offlinePollDue, hslot]

end

/-! ## The order of service (R78) -/

/-- A rotation serves the addresses by how far behind the last one granted they stand. -/
theorem rotationAfter_pairwise (last : Aisle) : (rotationAfter last).Pairwise fun a b => a - last - 1 < b - last - 1 := by
  revert last
  decide

theorem mem_rotationAfter (last a : Aisle) : a ∈ rotationAfter last := by
  revert last a
  decide

theorem aisles_pairwise : aisles.Pairwise (· < ·) := by decide

/-- Of the members of a list in strict order that pass a test, the one found stands first. -/
theorem le_of_find?_of_pairwise {α : Type} {f : α → Aisle} {l : List α} (hl : l.Pairwise fun x y => f x < f y) {p : α → Bool}
    {x : α} (hx : l.find? p = some x) {y : α} (hy : y ∈ l) (hp : p y = true) : f x ≤ f y := by
  obtain ⟨-, before, after, rfl, hbefore⟩ := List.find?_eq_some_iff_append.1 hx
  obtain ⟨-, htail, -⟩ := List.pairwise_append.1 hl
  rcases List.mem_append.1 hy with hin | hin
  · exact absurd hp (by simpa using hbefore y hin)
  · rcases List.mem_cons.1 hin with rfl | hin
    · exact le_rfl
    · exact (List.rel_of_pairwise_cons htail hin).le

theorem mem_classOrder (s : State) (c : GrantClass) (a : Aisle) : a ∈ s.classOrder c := by
  cases c with
  | one => exact mem_aisles a
  | two => exact mem_rotationAfter s.alc.last2 a
  | three => exact mem_rotationAfter s.alc.last3 a
  | four => exact mem_rotationAfter s.alc.last4 a

theorem classNext?_eq_none : s.classNext? c = none ↔ ∀ a, s.sends c a = false := by
  simp [State.classNext?, mem_classOrder]

theorem sends_of_classNext? (h : s.classNext? c = some a) : s.sends c a = true := List.find?_some h

/-- The place of a class in the order of R78. -/
def GrantClass.place : GrantClass → Nat
  | .one => 1 | .two => 2 | .three => 3 | .four => 4

theorem grantClasses_pairwise : grantClasses.Pairwise fun c d => c.place < d.place := by decide

theorem mem_grantClasses (c : GrantClass) : c ∈ grantClasses := by cases c <;> decide

theorem nextGrant?_eq_none_iff : ∀ l : List GrantClass, s.nextGrant? l = none ↔ ∀ c ∈ l, s.classNext? c = none
  | [] => by simp [State.nextGrant?]
  | c :: l => by
    cases h : s.classNext? c with
    | none => simp [State.nextGrant?, h, nextGrant?_eq_none_iff l]
    | some a => simp [State.nextGrant?, h]

theorem nextGrant?_first : ∀ {l : List GrantClass}, l.Pairwise (fun c d => c.place < d.place) →
    s.nextGrant? l = some (c, a) → s.classNext? c = some a ∧ ∀ d ∈ l, d.place < c.place → s.classNext? d = none
  | d :: l, hl, h => by
    obtain ⟨hfirst, hrest⟩ := List.pairwise_cons.1 hl
    cases hd : s.classNext? d with
    | some b =>
      simp only [State.nextGrant?, hd, Option.some.injEq, Prod.mk.injEq] at h
      obtain ⟨rfl, rfl⟩ := h
      refine ⟨hd, fun e he hlt => ?_⟩
      rcases List.mem_cons.1 he with rfl | he
      · exact absurd hlt (Nat.lt_irrefl _)
      · exact absurd hlt (hfirst e he).not_gt
    | none =>
      simp only [State.nextGrant?, hd] at h
      obtain ⟨hnext, hbefore⟩ := nextGrant?_first hrest h
      refine ⟨hnext, fun e he hlt => ?_⟩
      rcases List.mem_cons.1 he with rfl | he
      · exact hd
      · exact hbefore e he hlt

theorem nextGrant?_eq_none : s.nextGrant? grantClasses = none ↔ ∀ c a, s.sends c a = false := by
  simp only [nextGrant?_eq_none_iff, mem_grantClasses, forall_const, classNext?_eq_none]

section
variable (h : s.nextGrant? grantClasses = some (c, a))
include h

theorem classNext?_of_nextGrant? : s.classNext? c = some a := (nextGrant?_first grantClasses_pairwise h).1

/-- No class before the one granted has anything to send. -/
theorem sends_before_nextGrant? {d : GrantClass} (hd : d.place < c.place) (b : Aisle) : s.sends d b = false :=
  classNext?_eq_none.1 ((nextGrant?_first grantClasses_pairwise h).2 d (mem_grantClasses d) hd) b

end

theorem classNext?_one_lowest (h : s.classNext? .one = some a) {b : Aisle} (hb : b < a) : s.sends .one b = false :=
  Bool.eq_false_iff.2 fun hsends => hb.not_ge (le_of_find?_of_pairwise (f := id) aisles_pairwise h (mem_aisles b) hsends)

/-- In a rotation the address granted is the first after the last one granted. -/
theorem le_behind_of_find? {last b : Aisle} {p : Aisle → Bool} (h : (rotationAfter last).find? p = some a) (hb : p b = true) :
    a - last - 1 ≤ b - last - 1 :=
  le_of_find?_of_pairwise (rotationAfter_pairwise last) h (mem_rotationAfter last b) hb

/-! ## The grant (R78, R89) -/

theorem exec_linkGrant (hp : s.phase = .running) : exec .linkGrant s = .next s.takeLinkGrant :=
  congrArg _ (whenRunning_of_running hp State.takeLinkGrant)

theorem takeLinkGrant_busy (h : s.alc.exchange.isSome = true) : s.takeLinkGrant = s := by
  obtain ⟨x, hx⟩ := Option.isSome_iff_exists.1 h
  simp only [State.takeLinkGrant, hx]

section
variable (hfree : s.alc.exchange = none)
include hfree

theorem takeLinkGrant_none (h : s.nextGrant? grantClasses = none) : s.takeLinkGrant = s := by
  simp only [State.takeLinkGrant, hfree, State.grantLink, h]

theorem takeLinkGrant_begins (h : s.nextGrant? grantClasses = some (c, a)) (hstale : s.staleRevival a = false) :
    s.takeLinkGrant = s.beginExchange c a := by
  simp only [State.takeLinkGrant, hfree, State.grantLink, h, hstale, Bool.false_eq_true, if_false]

theorem takeLinkGrant_stale (h : s.nextGrant? grantClasses = some (c, a)) (hstale : s.staleRevival a = true) :
    s.takeLinkGrant = (s.dropStaleRevival a).settle.grantNext := by
  simp only [State.takeLinkGrant, hfree, State.grantLink, h, hstale, if_true]

end

theorem staleRevival_iff : s.staleRevival a = true ↔ s.slot a = some .hostRevival ∧ (s.shuttle a).state ≠ .faulted
    ∧ (s.shuttle a).state ≠ .offline := by
  simp only [State.staleRevival, Bool.and_eq_true, decide_eq_true_eq, and_assoc]

theorem grantNext_some (h : s.nextGrant? grantClasses = some (c, a)) : s.grantNext = s.beginExchange c a := by
  simp only [State.grantNext, h]

theorem grantNext_none (h : s.nextGrant? grantClasses = none) : s.grantNext = s := by
  simp only [State.grantNext, h]

/-! ## The exchange begun (R73, R76) -/

theorem shuttle_rotate (s : State) (c : GrantClass) (a b : Aisle) : (s.rotate c a).shuttle b =
    if c = .four ∧ b = a then { s.shuttle a with pollWait := some 2 } else s.shuttle b := by
  cases c with
  | four =>
    refine (shuttle_changeShuttle _ a b _).trans ?_
    simp only [true_and, eq_comm (a := b)]
    rfl
  | one | two | three => rfl

theorem slot_rotate (s : State) (c : GrantClass) (a b : Aisle) : (s.rotate c a).slot b = s.slot b := by
  cases c <;> rfl

theorem last_rotate (s : State) (c : GrantClass) (a : Aisle) :
    (s.rotate c a).alc.last2 = (if c = .two then a else s.alc.last2)
      ∧ (s.rotate c a).alc.last3 = (if c = .three then a else s.alc.last3)
      ∧ (s.rotate c a).alc.last4 = (if c = .four then a else s.alc.last4) := by
  cases c <;> exact ⟨rfl, rfl, rfl⟩

/-- A grant leaves the orders, the tables and the window (00 B). -/
theorem rotate_frame (s : State) (c : GrantClass) (a : Aisle) :
    (s.rotate c a).ou = s.ou ∧ (s.rotate c a).tab = s.tab ∧ (s.rotate c a).win = s.win := by
  cases c <;> exact ⟨rfl, rfl, rfl⟩

theorem grantKind_eq (s : State) (c : GrantClass) (a : Aisle) : s.grantKind c a = match c, s.slot a with
    | .four, _ => .offlinePoll
    | _, some (.command m _) => .command m
    | _, some .revival => .revival
    | _, some .hostRevival => .hostRevival
    | _, some .resume => .resume
    | _, none => .busyPoll := by
  cases c <;> rcases hslot : s.slot a with _ | m | _ | _ | _ <;> simp only [State.grantKind, hslot]

/-- Settles O22: the grant, what each class sends and which address it takes, and the exchange that begins. -/
theorem linkGrantBeginsOneExchange : Obligations.LinkGrantBeginsOneExchange := by
  refine fun s => ⟨fun hp => ?grant, fun a => staleRevival_iff, ⟨fun c a => grantNext_some, grantNext_none⟩, nextGrant?_eq_none,
    fun c a h => ?order, fun a => ?sends, fun c a => ?begins⟩
  case grant =>
    rw [exec_linkGrant hp]
    exact ⟨fun hbusy => congrArg _ (takeLinkGrant_busy hbusy),
      fun hfree hno => congrArg _ (takeLinkGrant_none hfree (nextGrant?_eq_none.2 hno)),
      fun hfree c a h hstale => congrArg _ (takeLinkGrant_begins hfree h hstale),
      fun hfree c a h hstale => congrArg _ (takeLinkGrant_stale hfree h hstale)⟩
  case order =>
    have hnext := classNext?_of_nextGrant? h
    refine ⟨sends_of_classNext? hnext, ?_, ?_, ?_, ?_⟩
    · rintro rfl
      exact fun b => classNext?_one_lowest hnext
    · rintro rfl
      exact ⟨sends_before_nextGrant? h (by decide), fun b => le_behind_of_find? hnext⟩
    · rintro rfl
      exact ⟨fun b => ⟨sends_before_nextGrant? h (by decide) b, sends_before_nextGrant? h (by decide) b⟩,
        fun b => le_behind_of_find? hnext⟩
    · rintro rfl
      exact ⟨fun b => ⟨sends_before_nextGrant? h (by decide) b, sends_before_nextGrant? h (by decide) b,
        sends_before_nextGrant? h (by decide) b⟩, fun b => le_behind_of_find? hnext⟩
  case sends =>
    rw [sends_one_iff, sends_two_iff, sends_three_iff, sends_four_iff, maySend_iff, offlinePollDue_iff]
    exact ⟨Iff.rfl, Iff.rfl, Iff.rfl, Iff.rfl⟩
  case begins =>
    intro t kind
    have hkind : s.grantKind c a = kind := grantKind_eq s c a
    obtain ⟨hlast2, hlast3, hlast4⟩ := last_rotate s c a
    obtain ⟨hou, htab, hwin⟩ := rotate_frame s c a
    refine ⟨?_, (slot_setSlot (s.rotate c a) a a none).trans (if_pos rfl),
      fun b hb => (slot_setSlot (s.rotate c a) a b none).trans ((if_neg hb.symm).trans (slot_rotate s c a b)),
      hlast2, hlast3, hlast4, shuttle_rotate s c a, hou, htab, hwin, ?_, ldir_beginExchange s c a, ltx_beginExchange s c a⟩
    · rw [← hkind]
      rfl
    · rw [← hkind, line_beginExchange, transmission, List.map_flatMap]
      rfl

end Sys2Proof.Machine
end

section
/-! Revivals: what a shuttle's own answer makes of its record, of its bin and of the RESTORE (R88, R152, R153). -/
namespace Sys2Proof.Machine

variable {s : State} {a : Aisle} {b : BinNo} {r : BinRec} {o : OrderNo} {st : StatusAnswer}

/-! ## A carried bin that the answer does not show (R71, R88) -/

theorem shuttle_changeShuttle_self (s : State) (a : Aisle) (f : Shuttle → Shuttle) :
    (s.changeShuttle a f).shuttle a = f (s.shuttle a) := (shuttle_changeShuttle s a a f).trans (if_pos rfl)

/-- The record of a bin lost from a shuttle (R71). -/
def BinRec.lost (r : BinRec) : BinRec := { r with place := .unverified }

theorem loseCarried_some {c : BinNo} (h : (s.shuttle a).carried = some c) :
    s.loseCarried a = (s.changeShuttle a fun r => { r with carried := none }).setPlace c .unverified := by
  simp only [State.loseCarried, h]

theorem loseCarried_none (h : (s.shuttle a).carried = none) : s.loseCarried a = s := by
  simp only [State.loseCarried, h]

theorem shuttle_loseCarried (s : State) (a : Aisle) : (s.loseCarried a).shuttle a = { s.shuttle a with carried := none } := by
  cases h : (s.shuttle a).carried with
  | none => rw [loseCarried_none h, ← h]
  | some c =>
    rw [loseCarried_some h]
    exact shuttle_changeShuttle_self s a fun r => { r with carried := none }

theorem binRec?_loseCarried (s : State) (a : Aisle) (b : BinNo) : (s.loseCarried a).binRec? b =
    if (s.shuttle a).carried = some b then (s.binRec? b).map BinRec.lost else s.binRec? b := by
  cases h : (s.shuttle a).carried with
  | none => rw [loseCarried_none h, if_neg nofun]
  | some c =>
    rw [loseCarried_some h, State.setPlace, binRec?_changeBin]
    simp only [Option.some.injEq, eq_comm (a := c)]
    refine if_ctx_congr Iff.rfl (fun e => ?_) fun _ => rfl
    rw [e]
    rfl

/-- A lost bin leaves the orders, the fault record and the segments as they are. -/
theorem loseCarried_frame (s : State) (a : Aisle) :
    (s.loseCarried a).ou = s.ou ∧ (s.loseCarried a).au = s.au ∧ (s.loseCarried a).tab.segments = s.tab.segments := by
  cases h : (s.shuttle a).carried with
  | none => rw [loseCarried_none h]; exact ⟨rfl, rfl, rfl⟩
  | some c => rw [loseCarried_some h]; exact ⟨rfl, rfl, rfl⟩

theorem loseOther_keeps (h : (s.shuttle a).carried = some b) :
    s.loseOther a b = s.changeShuttle a fun r => { r with carried := none } := if_pos h

theorem loseOther_loses (h : (s.shuttle a).carried ≠ some b) : s.loseOther a b = s.loseCarried a := if_neg h

theorem shuttle_loseOther (s : State) (a : Aisle) (b : BinNo) :
    (s.loseOther a b).shuttle a = { s.shuttle a with carried := none } := by
  by_cases h : (s.shuttle a).carried = some b
  · rw [loseOther_keeps h]
    exact shuttle_changeShuttle_self s a _
  · rw [loseOther_loses h, shuttle_loseCarried]

theorem binRec?_loseOther_self (s : State) (a : Aisle) (b : BinNo) : (s.loseOther a b).binRec? b = s.binRec? b := by
  by_cases h : (s.shuttle a).carried = some b
  · rw [loseOther_keeps h]
    rfl
  · rw [loseOther_loses h, binRec?_loseCarried, if_neg h]

/-- Every bin recorded on board, but for the one the answer shows, becomes UNVERIFIED from `s` to `t` (R88, R153). -/
def State.LosesOthers (s : State) (a : Aisle) (b : BinNo) (t : State) : Prop :=
  ∀ c, (s.shuttle a).carried = some c → c ≠ b → (t.binRec? c).map (·.place) = (s.binRec? c).map fun _ => Place.unverified

theorem place_loseCarried {c : BinNo} (h : (s.shuttle a).carried = some c) :
    ((s.loseCarried a).binRec? c).map (·.place) = (s.binRec? c).map fun _ => Place.unverified := by
  rw [binRec?_loseCarried, if_pos h, Option.map_map]
  rfl

theorem losesOthers_loseCarried (s : State) (a : Aisle) (b : BinNo) : s.LosesOthers a b (s.loseCarried a) :=
  fun _ h _ => place_loseCarried h

theorem losesOthers_loseOther (s : State) (a : Aisle) (b : BinNo) : s.LosesOthers a b (s.loseOther a b) := by
  intro c h hne
  rw [loseOther_loses (by rw [h]; exact fun e => hne (Option.some.inj e))]
  exact place_loseCarried h

theorem loseOther_frame (s : State) (a : Aisle) (b : BinNo) :
    (s.loseOther a b).ou = s.ou ∧ (s.loseOther a b).au = s.au ∧ (s.loseOther a b).tab.segments = s.tab.segments := by
  by_cases h : (s.shuttle a).carried = some b
  · rw [loseOther_keeps h]
    exact ⟨rfl, rfl, rfl⟩
  · rw [loseOther_loses h]
    exact loseCarried_frame s a

/-! ## The reading by what the shuttle holds (R88, R153) -/

theorem reviveAtRest_empty (h : st.last = some 4 ∨ st.label = .none) :
    s.reviveAtRest a st = (.none, (s.loseCarried a).goIdle a) := by
  by_cases hl : st.last = some 4
  · exact if_pos hl
  · refine (if_neg hl).trans ?_
    rw [h.resolve_left hl]

section
variable (hl : st.last ≠ some 4)
include hl

theorem reviveAtRest_unreadable (h : st.label = .unreadable) : s.reviveAtRest a st = (.none, s.reviveUnreadable a) :=
  (if_neg hl).trans (by rw [h])

theorem reviveAtRest_bin (h : st.label = .bin b) : s.reviveAtRest a st = s.reviveWithBin a b :=
  (if_neg hl).trans (by rw [h])

end

theorem reviveWithBin_noRecord (h : s.binRec? b = none) :
    s.reviveWithBin a b = (.none, (s.loseCarried a).rejectLabel a b none) := by
  simp only [State.reviveWithBin, h]

section
variable (h : s.binRec? b = some r)
include h

theorem reviveWithBin_otherAisle (hhome : s.homeAisle b ≠ a) :
    s.reviveWithBin a b = (.none, ((s.loseCarried a).unsettleFree b).rejectLabel a b none) := by
  simp only [State.reviveWithBin, h]
  exact if_pos hhome

variable (hhome : s.homeAisle b = a)
include hhome

theorem reviveWithBin_wrongPlace (hplace : r.place.onBoardFrom a = false) :
    s.reviveWithBin a b = (.none, (s.loseOther a b).rejectLabel a b none) := by
  simp [State.reviveWithBin, h, hhome, hplace]

variable (hplace : r.place.onBoardFrom a = true)
include hplace

theorem reviveWithBin_free (hfree : r.holder = none) : s.reviveWithBin a b = s.acceptLabel a b false := by
  simp [State.reviveWithBin, h, hhome, hplace, hfree]

theorem reviveWithBin_kept (hheld : r.holder = some o) (hrestore : s.isRestoreFor o a b = true) :
    s.reviveWithBin a b = s.acceptLabel a b true := by
  simp [State.reviveWithBin, h, hhome, hplace, hheld, hrestore]

theorem reviveWithBin_held (hheld : r.holder = some o) (hrestore : s.isRestoreFor o a b = false) :
    s.reviveWithBin a b = (.none, (s.loseOther a b).rejectLabel a b (some o)) := by
  simp [State.reviveWithBin, h, hhome, hplace, hheld, hrestore]

end

/-! ## A shuttle found without a bin, or with an unreadable one (R88) -/

theorem revive_empty_reads (s : State) (a : Aisle) :
    let t := (s.loseCarried a).goIdle a
    (t.shuttle a).state = .idle ∧ (t.shuttle a).carried = none ∧ (t.shuttle a).order = none ∧ t.au.fault = s.au.fault
      ∧ ∀ c, (s.shuttle a).carried = some c → (t.binRec? c).map (·.place) = (s.binRec? c).map fun _ => Place.unverified := by
  intro t
  have hshuttle : t.shuttle a = { s.shuttle a with state := .idle, order := none, carried := none } := by
    refine (shuttle_changeShuttle_self (s.loseCarried a) a _).trans ?_
    rw [shuttle_loseCarried]
  obtain ⟨-, hau, -⟩ := loseCarried_frame s a
  rw [hshuttle]
  exact ⟨rfl, rfl, rfl, congrArg AttentionUnit.fault hau, fun c => place_loseCarried⟩

theorem revive_unreadable_reads (s : State) (a : Aisle) :
    let t := s.reviveUnreadable a
    (t.shuttle a).state = .faulted ∧ (t.shuttle a).carried = none
      ∧ (∀ c, (s.shuttle a).carried = some c → (t.binRec? c).map (·.place) = (s.binRec? c).map fun _ => Place.unverified)
      ∧ t.au.fault = some (captured
        { kind := .labelUnreadable, shuttle := some a, order := none, bin := none, stage := none, code := none } s.au.fault) := by
  intro t
  have hshuttle : t.shuttle a = { s.shuttle a with state := .faulted, carried := none } := by
    refine (shuttle_changeShuttle_self (s.loseCarried a) a fun r => { r with state := .faulted }).trans ?_
    rw [shuttle_loseCarried]
  obtain ⟨-, hau, -⟩ := loseCarried_frame s a
  rw [hshuttle]
  refine ⟨rfl, rfl, fun c => place_loseCarried, ?_⟩
  rw [← hau]
  rfl

/-! ## A label that is not accepted (R153) -/

theorem shuttle_rejectLabel (s : State) (a : Aisle) (b : BinNo) (o : Option OrderNo) :
    (s.rejectLabel a b o).shuttle a = { s.shuttle a with state := .faulted, carried := none } :=
  shuttle_changeShuttle_self s a fun r => { r with state := .faulted, carried := none }

theorem binRec?_unsettleFree (s : State) (b c : BinNo) : (s.unsettleFree b).binRec? c = if c = b then
    (s.binRec? b).map fun r => if r.place = .home ∧ r.holder = none then r.lost else r
    else s.binRec? c := binRec?_changeBin s b c _

/-- What a label that is not accepted leaves, from `s` to `t` (R153). -/
def State.Rejects (s : State) (a : Aisle) (b : BinNo) (t : State) : Prop :=
  (t.shuttle a).state = .faulted ∧ (t.shuttle a).carried = none ∧ s.LosesOthers a b t
    ∧ (s.homeAisle b = a → s.binRec? b ≠ none → t.binRec? b = s.binRec? b)
    ∧ (∀ r, s.binRec? b = some r → s.homeAisle b ≠ a → t.binRec? b = some { r with
        place := if (s.shuttle a).carried = some b ∨ (r.place = .home ∧ r.holder = none) then .unverified else r.place })
    ∧ ∃ o, t.au.fault = some (captured (rejectCapture a b o) s.au.fault)

theorem rejects_noRecord (h : s.binRec? b = none) (o : Option OrderNo) :
    s.Rejects a b ((s.loseCarried a).rejectLabel a b o) := by
  obtain ⟨-, hau, -⟩ := loseCarried_frame s a
  refine ⟨by rw [shuttle_rejectLabel], by rw [shuttle_rejectLabel], losesOthers_loseCarried s a b, fun _ hsome => absurd h hsome,
    fun r hr => ?_, o, ?_⟩
  · rw [h] at hr
    cases hr
  · rw [← hau]
    rfl

theorem rejects_otherAisle (h : s.binRec? b = some r) (hhome : s.homeAisle b ≠ a) (o : Option OrderNo) :
    s.Rejects a b (((s.loseCarried a).unsettleFree b).rejectLabel a b o) := by
  obtain ⟨-, hau, -⟩ := loseCarried_frame s a
  have hbin (c : BinNo) : (((s.loseCarried a).unsettleFree b).rejectLabel a b o).binRec? c =
      ((s.loseCarried a).unsettleFree b).binRec? c := rfl
  refine ⟨by rw [shuttle_rejectLabel], by rw [shuttle_rejectLabel], fun c hc hne => ?_, fun e => absurd e hhome,
    fun r' hr' _ => ?_, o, ?_⟩
  · rw [hbin, binRec?_unsettleFree, if_neg hne]
    exact place_loseCarried hc
  · obtain rfl := Option.some.inj (h.symm.trans hr')
    rw [hbin, binRec?_unsettleFree, if_pos rfl, binRec?_loseCarried, h]
    by_cases hc : (s.shuttle a).carried = some b
    · simp [hc, BinRec.lost]
    · by_cases hfree : r.place = .home ∧ r.holder = none
      · simp [hc, hfree, BinRec.lost]
      · simp [hc, hfree]
  · rw [← hau]
    rfl

theorem rejects_ownAisle (hhome : s.homeAisle b = a) (o : Option OrderNo) :
    s.Rejects a b ((s.loseOther a b).rejectLabel a b o) := by
  obtain ⟨-, hau, -⟩ := loseOther_frame s a b
  refine ⟨by rw [shuttle_rejectLabel], by rw [shuttle_rejectLabel], losesOthers_loseOther s a b,
    fun _ _ => binRec?_loseOther_self s a b, fun _ _ hother => absurd hhome hother, o, ?_⟩
  rw [← hau]
  rfl

/-- Every label that is not accepted (R153), whichever row of the table it meets. -/
theorem reviveWithBin_rejects (h : ∀ r, s.binRec? b = some r → s.homeAisle b ≠ a ∨ r.place.onBoardFrom a = false
    ∨ ∃ o, r.holder = some o ∧ s.isRestoreFor o a b = false) : s.Rejects a b (s.reviveWithBin a b).2 := by
  cases hr : s.binRec? b with
  | none =>
    rw [reviveWithBin_noRecord hr]
    exact rejects_noRecord hr none
  | some r =>
    by_cases hhome : s.homeAisle b = a
    · cases hplace : r.place.onBoardFrom a with
      | false =>
        rw [reviveWithBin_wrongPlace hr hhome hplace]
        exact rejects_ownAisle hhome none
      | true =>
        obtain ⟨o, hheld, hrestore⟩ := ((h r hr).resolve_left (not_not.2 hhome)).resolve_left (by simp [hplace])
        rw [reviveWithBin_held hr hhome hplace hheld hrestore]
        exact rejects_ownAisle hhome (some o)
    · rw [reviveWithBin_otherAisle hr hhome]
      exact rejects_otherAisle hr hhome none

/-! ## A label that is accepted (R88) -/

/-- The state in which a reported bin is on board, before a RESTORE is made (R88). -/
def State.boarded (a : Aisle) (b : BinNo) (s : State) : State := ((s.loseOther a b).goIdle a).board a b

theorem acceptLabel_kept (s : State) (a : Aisle) (b : BinNo) : s.acceptLabel a b true = (.none, s.boarded a b) := rfl

theorem acceptLabel_free (s : State) (a : Aisle) (b : BinNo) : s.acceptLabel a b false = (s.boarded a b).makeRestore a b := rfl

theorem shuttle_boarded (s : State) (a : Aisle) (b : BinNo) : (s.boarded a b).shuttle a =
    { s.shuttle a with state := .idle, order := none, carried := some b } := by
  have hidle : ((s.loseOther a b).goIdle a).shuttle a = { s.shuttle a with state := .idle, order := none, carried := none } := by
    refine (shuttle_changeShuttle_self (s.loseOther a b) a _).trans ?_
    rw [shuttle_loseOther]
  rw [State.boarded, shuttle_board, hidle]

theorem place_boarded (h : s.binRec? b = some r) : ((s.boarded a b).binRec? b).map (·.place) = some (.onShuttle a) := by
  have hboard : (s.boarded a b).binRec? b = some { r with place := .onShuttle a } :=
    binRec?_board (s := (s.loseOther a b).goIdle a) ((binRec?_loseOther_self s a b).trans h)
  rw [hboard]
  rfl

theorem losesOthers_boarded (s : State) (a : Aisle) (b : BinNo) : s.LosesOthers a b (s.boarded a b) := by
  intro c hc hne
  have hboard : (s.boarded a b).binRec? c = (s.loseOther a b).binRec? c :=
    binRec?_setPlace_ne (s := ((s.loseOther a b).goIdle a).changeShuttle a fun r => { r with carried := some b }) hne (.onShuttle a)
  rw [hboard]
  exact losesOthers_loseOther s a b c hc hne

theorem ou_boarded (s : State) (a : Aisle) (b : BinNo) : (s.boarded a b).ou = s.ou := (loseOther_frame s a b).1

/-- The making of a RESTORE moves no bin (R88). -/
theorem place_makeRestore (s : State) (a : Aisle) (b c : BinNo) :
    ((s.makeRestore a b).2.binRec? c).map (·.place) = (s.binRec? c).map (·.place) := by
  unfold State.makeRestore
  split
  · refine (congrArg _ (binRec?_placeOrder s _ _ c)).trans ?_
    split
    · rw [Option.map_map]
      rfl
    · rfl
  · rfl

theorem freeEntry?_congr {t : State} (h : t.ou.orders = s.ou.orders) : t.freeEntry? = s.freeEntry? := by
  simp only [State.freeEntry?, State.order?, h]

theorem makeRestore_made {e : OrderNo} (h : s.freeEntry? = some e) : (s.makeRestore a b).1 = .made e
    ∧ (s.makeRestore a b).2.order? e = some
      { kind := .restore, source := .recovery, bin := b, aisle := a, priority := 3, stage := .run .queued, dest := none
        cancel := false, pendingOutcome := none } := by
  simp only [State.makeRestore, h]
  exact ⟨trivial, (order?_placeOrder s e e _).trans (if_pos rfl)⟩

theorem makeRestore_waits (h : s.freeEntry? = none) :
    (s.makeRestore a b).1 = .waits ∧ Claim.restore a b ∈ (s.makeRestore a b).2.ou.claims := by
  simp only [State.makeRestore, h]
  exact ⟨trivial, List.mem_append_right _ (List.mem_singleton_self _)⟩

/-- The bin is on board the IDLE shuttle in `t`, and every other bin recorded there is lost (R88). -/
def State.Accepts (s : State) (a : Aisle) (b : BinNo) (t : State) : Prop :=
  (t.shuttle a).state = .idle ∧ (t.shuttle a).carried = some b ∧ (t.binRec? b).map (·.place) = some (.onShuttle a)
    ∧ s.LosesOthers a b t

theorem accepts_boarded (h : s.binRec? b = some r) : s.Accepts a b (s.boarded a b) := by
  rw [State.Accepts, shuttle_boarded]
  exact ⟨rfl, rfl, place_boarded h, losesOthers_boarded s a b⟩

theorem accepts_makeRestore (h : s.binRec? b = some r) : s.Accepts a b ((s.boarded a b).makeRestore a b).2 := by
  obtain ⟨hstate, hcarried, hplace, hlost⟩ := accepts_boarded (a := a) h
  have hshuttle : ((s.boarded a b).makeRestore a b).2.shuttle a = (s.boarded a b).shuttle a := by
    rw [State.shuttle, alc_makeRestore, State.shuttle]
  refine ⟨by rw [hshuttle, hstate], by rw [hshuttle, hcarried], (place_makeRestore _ a b b).trans hplace, fun c hc hne => ?_⟩
  exact (place_makeRestore _ a b c).trans (hlost c hc hne)

/-! ## The answer's motion state (R88) -/

theorem revive_moving (h : st.motion = .moving) : s.revive a (some (.status st)) = (.none, s.heard a (.status st)) := by
  simp only [State.revive, h]

theorem revive_fault (h : st.motion = .fault) :
    s.revive a (some (.status st)) = (.none, (s.heard a (.status st)).reviveFaulted a st.code) := by
  simp only [State.revive, h]

theorem revive_atRest (h : st.motion = .idle ∨ st.motion = .done) :
    s.revive a (some (.status st)) = (s.heard a (.status st)).reviveAtRest a st := by
  rcases h with h | h <;> simp only [State.revive, h]

theorem carried_heard_status (s : State) (a : Aisle) (st : StatusAnswer) :
    ((s.heard a (.status st)).shuttle a).carried = (s.shuttle a).carried := by
  rw [shuttle_heard_status]
  rfl

theorem currentOrder?_heard_status (s : State) (a : Aisle) (st : StatusAnswer) :
    (s.heard a (.status st)).currentOrder? a = s.currentOrder? a := by
  refine currentOrder?_congr ?_ rfl
  rw [shuttle_heard_status]
  rfl

theorem shuttle_reviveFaulted (s : State) (a : Aisle) (code : Byte) :
    (s.reviveFaulted a code).shuttle a = { s.shuttle a with state := .faulted, faultCode := code } :=
  shuttle_changeShuttle_self s a fun r => { r with state := .faulted, faultCode := code }

theorem fault_reviveFaulted (s : State) (a : Aisle) (code : Byte) : (s.reviveFaulted a code).au.fault =
    some (captured (s.shuttleCapture .shuttleFault a (some code)) s.au.fault) := by
  let u := s.changeShuttle a fun r => { r with state := .faulted, faultCode := code }
  have hshuttle : u.shuttle a = { s.shuttle a with state := .faulted, faultCode := code } := shuttle_changeShuttle_self s a _
  have hcurrent : u.currentOrder? a = s.currentOrder? a := currentOrder?_congr (by rw [hshuttle]) rfl
  have hcarried : (u.shuttle a).carried = (s.shuttle a).carried := by rw [hshuttle]
  have hcapture := shuttleCapture_congr hcurrent hcarried .shuttleFault (some code)
  rw [← hcapture]
  rfl

/-! ## The ends of exchanges (R76, R152) -/

theorem revivalResult_moving {ans : Option LinkAnswer} (h : ans = some (.status st)) (hm : st.motion = .moving) :
    s.revivalResult a ans =
      (s.revive a ans).2.putShuttle a { (s.revive a ans).2.shuttle a with revivalRetry := some 2 } := by
  have hstill : stillMoving ans = true := by rw [h, stillMoving, hm]; rfl
  exact if_pos hstill

theorem revivalResult_settled {ans : Option LinkAnswer} (h : ∀ st, ans = some (.status st) → st.motion ≠ .moving) :
    s.revivalResult a ans = (s.revive a ans).2 := by
  refine if_neg fun hmoving => ?_
  unfold stillMoving at hmoving
  split at hmoving
  · exact h _ rfl (of_decide_eq_true hmoving)
  · exact Bool.false_ne_true hmoving

/-- No request waits on a recovery revival or an offline poll. -/
theorem refuseRequest_of_revival {k : ExchangeKind} (h : k = .revival ∨ k = .offlinePoll) (s : State) : s.refuseRequest k = s := by
  rcases h with rfl | rfl
  · rfl
  · rfl

/-- Settles O28: the answer's motion state, then what the shuttle holds and whether its label is accepted, then the ends. -/
theorem revivalReadsWhatTheShuttleHolds : Obligations.RevivalReadsWhatTheShuttleHolds := by
  refine ⟨fun s a => ⟨rfl, fun st => ?reading⟩, fun s x ans hk => ?ends⟩
  case reading =>
    intro h t
    have hcarried : (h.shuttle a).carried = (s.shuttle a).carried := carried_heard_status s a st
    refine ⟨fun hm => congrArg Prod.snd (revive_moving hm), fun hm => ?fault, fun hm => ?atRest⟩
    case fault =>
      have ht : t = h.reviveFaulted a st.code := congrArg Prod.snd (revive_fault hm)
      rw [ht]
      refine ⟨shuttle_reviveFaulted h a st.code, (fault_reviveFaulted h a st.code).trans ?_⟩
      rw [shuttleCapture_eq, currentOrder?_heard_status, hcarried]
      rfl
    case atRest =>
      have hreads : s.revive a (some (.status st)) = h.reviveAtRest a st := revive_atRest hm
      have ht : t = (h.reviveAtRest a st).2 := congrArg Prod.snd hreads
      rw [hreads, ht, ← hcarried]
      refine ⟨fun hempty => ?_, fun hl hlabel => ?_, fun b r hl hlabel hr hhome hplace hfree => ?_,
        fun b r o hl hlabel hr hhome hplace hheld hrestore => ?_, fun b r o hl hlabel hr hhome hplace hheld hrestore => ?_,
        fun b hl hlabel hrow => ?_⟩
      · rw [reviveAtRest_empty hempty]
        exact revive_empty_reads h a
      · rw [reviveAtRest_unreadable hl hlabel]
        exact revive_unreadable_reads h a
      · rw [reviveAtRest_bin hl hlabel, reviveWithBin_free (s := h) hr hhome hplace hfree, acceptLabel_free]
        obtain ⟨hstate, hboard, honboard, hlost⟩ := accepts_makeRestore (s := h) (a := a) hr
        have hentry : (h.boarded a b).freeEntry? = s.freeEntry? :=
          freeEntry?_congr (congrArg OrderUnit.orders (ou_boarded h a b))
        rw [← hentry]
        exact ⟨hstate, hboard, honboard, hlost, fun e => makeRestore_made, makeRestore_waits⟩
      · rw [reviveAtRest_bin hl hlabel, reviveWithBin_kept (s := h) hr hhome hplace hheld hrestore, acceptLabel_kept]
        obtain ⟨hstate, hboard, honboard, hlost⟩ := accepts_boarded (s := h) (a := a) hr
        exact ⟨hstate, hboard, honboard, hlost, ou_boarded h a b, rfl⟩
      · rw [reviveAtRest_bin hl hlabel, reviveWithBin_held (s := h) hr hhome hplace hheld hrestore]
        obtain ⟨-, hau, -⟩ := loseOther_frame h a b
        exact congrArg (fun u => some (captured (rejectCapture a b (some o)) u.fault)) hau
      · rw [reviveAtRest_bin hl hlabel]
        obtain ⟨hstate, hboard, hlost, hown, hother, o, hfault⟩ := reviveWithBin_rejects (s := h) hrow
        exact ⟨hstate, hboard, hlost, hown, hother, rejectCapture a b o, rfl, rfl, rfl, rfl, rfl, hfault⟩
  case ends =>
    intro a f t
    refine ⟨fun hu hpoll => ?_, fun hu hrevival => ?_, fun hu => ?_, fun hu => ?_⟩
    · rw [endExchange_full ans hu, hpoll]
      rfl
    · rw [endExchange_full ans hu, hrevival]
      exact ⟨fun st => revivalResult_moving, revivalResult_settled⟩
    · rw [endExchange_limited ans hu, refuseRequest_of_revival hk]
      cases ans <;> rfl
    · rw [endExchange_discarded ans hu, refuseRequest_of_revival hk]

end Sys2Proof.Machine
end

section
/-! The lane's requesters and grants (R92 to R94). -/
namespace Sys2Proof.Machine

variable {s : State} {q : Requester} {b : BinNo} {o : OrderNo} {d : CrossDest} {r : Order}

/-! ## Present requesters (R92) -/

/-- What a waiting order asks of the lane at a requester: a FETCH its station, a STOW its bin's home port (R92). -/
def State.Asks (s : State) (q : Requester) (b : BinNo) (r : Order) (d : CrossDest) : Prop :=
  match q with
  | .port _ => r.kind = .fetch ∧ ∃ ds, r.dest = some ds ∧ d = .station ds
  | .station _ => r.kind = .stow ∧ d = .portIn (s.homeAisle b)

theorem crossDest?_eq_some : r.crossDest? = some d ↔ ∃ ds, r.dest = some ds ∧ d = .station ds := by
  rw [Order.crossDest?, Option.map_eq_some_iff]
  exact exists_congr fun ds => and_congr_right fun _ => eq_comm

section
variable {rec : BinRec} (hbin : s.requesterBin? q = some b) (hrec : s.binRec? b = some rec) (hholder : rec.holder = some o)
  (horder : s.order? o = some r) (hstage : r.stage = .run .waitingLane)
include hbin hrec hholder horder hstage

/-- At a place whose bin is held by a waiting order, a request is what the order asks for. -/
theorem request?_of_waiting {x : BinNo × OrderNo × CrossDest} :
    s.request? q = some x ↔ x.1 = b ∧ x.2.1 = o ∧ s.Asks q b r x.2.2 := by
  obtain ⟨b', o', d'⟩ := x
  simp only [State.request?, hbin, hrec, hholder, horder, hstage, if_true]
  cases q with
  | port a =>
    by_cases hkind : r.kind = .fetch
    · simp only [hkind, if_true, State.Asks, Option.map_eq_some_iff, crossDest?_eq_some, Prod.mk.injEq, true_and]
      grind
    · simp [State.Asks, hkind]
  | station n =>
    by_cases hkind : r.kind = .stow
    · simp only [hkind, if_true, State.Asks, Option.some.injEq, Prod.mk.injEq, true_and]
      grind
    · simp [State.Asks, hkind]

end

/-- A requester is present where a waiting order holds its bin (R92). -/
theorem request?_eq_some : s.request? q = some (b, o, d) ↔ ∃ rec r, s.requesterBin? q = some b ∧ s.binRec? b = some rec
    ∧ rec.holder = some o ∧ s.order? o = some r ∧ r.stage = .run .waitingLane ∧ s.Asks q b r d := by
  constructor
  · intro h
    have hpresent := h
    unfold State.request? at hpresent
    split at hpresent
    · cases hpresent
    next b' hbin =>
      split at hpresent
      · cases hpresent
      next rec hrec =>
        split at hpresent
        · cases hpresent
        next o' hholder =>
          split at hpresent
          · cases hpresent
          next r horder =>
            split at hpresent
            next hstage =>
              obtain ⟨rfl, rfl, hasks⟩ := (request?_of_waiting hbin hrec hholder horder hstage).1 h
              exact ⟨rec, r, hbin, hrec, hholder, horder, hstage, hasks⟩
            · cases hpresent
  · rintro ⟨rec, r, hbin, hrec, hholder, horder, hstage, hasks⟩
    exact (request?_of_waiting hbin hrec hholder horder hstage).2 ⟨rfl, rfl, hasks⟩

/-! ## The order of service (R93) -/

/-- A requester is absent, or the place that its bin is bound for is taken. -/
def State.NotEligible (s : State) (q : Requester) : Prop :=
  ∀ b o d, s.request? q = some (b, o, d) → ∃ a x, d = .portIn a ∧ s.inPlace a = some x

theorem destinationTakes_iff : s.destinationTakes d = true ↔ ∀ a, d = .portIn a → s.inPlace a = none := by
  cases d <;> simp [State.destinationTakes]

theorem destinationTakes_of_taken {a : Aisle} {x : BinNo} (h : s.inPlace a = some x) :
    s.destinationTakes (.portIn a) = false := by
  simp [State.destinationTakes, h]

theorem firstEligible?_notEligible (h : s.NotEligible q) (l : List Requester) :
    s.firstEligible? (q :: l) = s.firstEligible? l := by
  rw [State.firstEligible?]
  split
  next b o d hreq =>
    obtain ⟨a, x, rfl, hx⟩ := h b o d hreq
    rw [destinationTakes_of_taken hx]
    rfl
  · rfl

theorem firstEligible?_skips (l : List Requester) : ∀ before : List Requester, (∀ p ∈ before, s.NotEligible p) →
    s.firstEligible? (before ++ l) = s.firstEligible? l
  | [], _ => rfl
  | p :: before, h => by
    rw [List.cons_append, firstEligible?_notEligible (h p List.mem_cons_self)]
    exact firstEligible?_skips l before fun p hp => h p (List.mem_cons_of_mem _ hp)

theorem firstEligible?_eligible (hreq : s.request? q = some (b, o, d)) (hd : s.destinationTakes d = true)
    (l : List Requester) : s.firstEligible? (q :: l) = some (q, b, o, d) := by
  simp only [State.firstEligible?, hreq, hd, if_true]

theorem mem_requesters (q : Requester) : q ∈ requesters := by
  cases q with
  | port a => revert a; decide
  | station n => revert n; decide

theorem mem_rotation (s : State) (q : Requester) : q ∈ s.rotation := by
  rw [State.rotation, List.mem_append, or_comm, ← List.mem_append, List.take_append_drop]
  exact mem_requesters q

/-- The rotation serves the requesters by how far behind the grant pointer they stand (R93). -/
theorem rotation_pairwise (s : State) :
    s.rotation.Pairwise fun p q => p.index - s.lc.pointer - 1 < q.index - s.lc.pointer - 1 := by
  rw [State.rotation]
  generalize s.lc.pointer = pointer
  revert pointer
  decide

/-- The requester found is the first eligible one behind the pointer. -/
theorem firstEligible?_rotation (hreq : s.request? q = some (b, o, d)) (hd : s.destinationTakes d = true)
    (hbefore : ∀ p : Requester, p.index - s.lc.pointer - 1 < q.index - s.lc.pointer - 1 → s.NotEligible p) :
    s.firstEligible? s.rotation = some (q, b, o, d) := by
  have hpair := rotation_pairwise s
  obtain ⟨before, after, hsplit⟩ := List.append_of_mem (mem_rotation s q)
  rw [hsplit] at hpair ⊢
  obtain ⟨-, -, hfirst⟩ := List.pairwise_append.1 hpair
  rw [firstEligible?_skips _ before fun p hp => hbefore p (hfirst p hp q List.mem_cons_self)]
  exact firstEligible?_eligible hreq hd after

theorem lookForCrossing_idle (h : s.zoneState 3 ≠ .normal ∨ s.lc.crossing ≠ none) : s.lookForCrossing = s := by
  refine if_neg fun hfree => ?_
  rw [Bool.and_eq_true, Option.isNone_iff_eq_none] at hfree
  obtain ⟨hhall, hlane⟩ := hfree
  exact h.elim (· (zoneNormal_iff.1 hhall)) (· hlane)

section
variable (hhall : s.zoneState 3 = .normal) (hlane : s.lc.crossing = none)
include hhall hlane

theorem lane_free : (s.hallNormal && s.lc.crossing.isNone) = true := by
  rw [Bool.and_eq_true, Option.isNone_iff_eq_none]
  exact ⟨zoneNormal_iff.2 hhall, hlane⟩

theorem lookForCrossing_passes (h : s.firstEligible? s.rotation = none) : s.lookForCrossing = s := by
  simp only [State.lookForCrossing, lane_free hhall hlane, h, if_true]

theorem lookForCrossing_grants (h : s.firstEligible? s.rotation = some (q, b, o, d)) :
    s.lookForCrossing = s.grantCrossing q b o d := by
  simp only [State.lookForCrossing, lane_free hhall hlane, h, if_true]

end

theorem lookForCrossing_none (h : ∀ q, s.NotEligible q) : s.lookForCrossing = s := by
  by_cases hfree : s.zoneState 3 = .normal ∧ s.lc.crossing = none
  · obtain ⟨hhall, hlane⟩ := hfree
    refine lookForCrossing_passes hhall hlane ?_
    have hnone := firstEligible?_skips (s := s) [] s.rotation fun q _ => h q
    rwa [List.append_nil] at hnone
  · exact lookForCrossing_idle (not_and_or.1 hfree)

/-! ## The grant (R94) -/

theorem setStage_of_some (h : s.order? o = some r) (st : RunStage) :
    s.setStage o st = s.putOrder o { r with stage := .run st } := by
  simp only [State.setStage, h]

theorem emptySource_frame (s : State) (q : Requester) :
    ∃ ports outs, s.emptySource q = { s with lc.outPlaces := ports, su.outs := outs } := by
  cases q with
  | port a => exact ⟨_, s.su.outs, rfl⟩
  | station n => exact ⟨s.lc.outPlaces, _, rfl⟩

theorem requesterBin?_emptySource (s : State) (q : Requester) : (s.emptySource q).requesterBin? q = none := by
  cases q with
  | port a => exact (outPlace_setOutPlace s a a none).trans (if_pos rfl)
  | station n => exact (stationOut_setStationOut s n n none).trans (if_pos rfl)

/-- The crossing record that a grant makes (R94). -/
def grantedCrossing (q : Requester) (b : BinNo) (o : OrderNo) (d : CrossDest) : Crossing :=
  { source := q, dest := d, bin := b, order := o, state := .running 30 }

/-- A grant to a waiting order. -/
theorem grantCrossing_eq (h : s.order? o = some r) : s.grantCrossing q b o d =
    (((({ s with lc.crossing := some (grantedCrossing q b o d), lc.pointer := q.index } : State).emptySource q).setPlace b
      .crossing).putOrder o { r with stage := .run .crossing }).driveLane q d := by
  obtain ⟨ports, outs, hs⟩ :=
    emptySource_frame { s with lc.crossing := some (grantedCrossing q b o d), lc.pointer := q.index } q
  have horder : ((({ s with lc.crossing := some (grantedCrossing q b o d), lc.pointer := q.index } : State).emptySource
      q).setPlace b .crossing).order? o = some r := by
    rw [hs]
    exact h
  rw [← setStage_of_some horder]
  rfl

/-- What a grant to a waiting order leaves to be read. -/
theorem grantCrossing_reads {rec : BinRec} (hrec : s.binRec? b = some rec) (horder : s.order? o = some r) :
    let t := s.grantCrossing q b o d
    t.lc.crossing = some (grantedCrossing q b o d) ∧ t.lc.pointer = q.index ∧ t.requesterBin? q = none
      ∧ (t.binRec? b).map (·.place) = some .crossing ∧ (t.order? o).map (·.stage) = some (.run .crossing)
      ∧ t.lc.lsrc = BitVec.ofNat 4 q.code ∧ t.lc.ldst = BitVec.ofNat 4 d.code ∧ t.lc.lgoPulses = s.lc.lgoPulses + 1 := by
  intro t
  let granted : State := { s with lc.crossing := some (grantedCrossing q b o d), lc.pointer := q.index }
  let moved : State := (granted.emptySource q).setPlace b .crossing
  have ht : t = (moved.putOrder o { r with stage := .run .crossing }).driveLane q d := grantCrossing_eq horder
  obtain ⟨ports, outs, hs⟩ := emptySource_frame granted q
  have hbin : (granted.emptySource q).binRec? b = some rec := by rw [hs]; exact hrec
  have hlc : t.lc = { granted.lc with
      outPlaces := ports, lsrc := BitVec.ofNat 4 q.code, ldst := BitVec.ofNat 4 d.code, lgoPulses := s.lc.lgoPulses + 1 } := by
    rw [ht, show moved = (granted.emptySource q).setPlace b .crossing from rfl, hs]
    rfl
  have hsource : t.requesterBin? q = (granted.emptySource q).requesterBin? q := by
    rw [ht]
    cases q <;> rfl
  have hplace : t.binRec? b = some { rec with place := .crossing } := by
    rw [ht]
    exact binRec?_setPlace_self hbin .crossing
  have hstage : t.order? o = some { r with stage := .run .crossing } := by
    rw [ht]
    exact (order?_putOrder moved o o _).trans (if_pos rfl)
  rw [hlc, hsource, hplace, hstage]
  exact ⟨rfl, rfl, requesterBin?_emptySource granted q, rfl, rfl, rfl, rfl, rfl⟩

/-- Settles O30: who is present, who is first behind the pointer, and what its grant writes. -/
theorem laneGrantsInRotation : Obligations.LaneGrantsInRotation := by
  refine fun s => ⟨lookForCrossing_idle, lookForCrossing_none, fun a b o d => ?port, fun n b o d => ?station,
    fun hhall hlane q b o d hreq hd hbefore => ?grant⟩
  case port =>
    refine request?_eq_some.trans ⟨?_, ?_⟩
    · rintro ⟨rec, r, hbin, hrec, hholder, horder, hstage, hkind, ds, hds, rfl⟩
      exact ⟨rec, r, ds, hbin, hrec, hholder, horder, hstage, hkind, hds, rfl⟩
    · rintro ⟨rec, r, ds, hbin, hrec, hholder, horder, hstage, hkind, hds, rfl⟩
      exact ⟨rec, r, hbin, hrec, hholder, horder, hstage, hkind, ds, hds, rfl⟩
  case station => exact request?_eq_some
  case grant =>
    obtain ⟨rec, r, -, hrec, -, horder, -, -⟩ := request?_eq_some.1 hreq
    rw [lookForCrossing_grants hhall hlane (firstEligible?_rotation hreq (destinationTakes_iff.2 hd) hbefore)]
    exact grantCrossing_reads hrec horder

end Sys2Proof.Machine
end

section
/-! The ends of crossings (R95 to R97). -/
namespace Sys2Proof.Machine

variable {s : State} {c : Crossing} {r : Order} {rec : BinRec}

/-! ## The three events -/

section
variable (hp : s.phase = .running)
include hp

theorem exec_ldone : exec .ldone s = .next s.takeDone := congrArg _ (whenRunning_of_running hp State.takeDone)

theorem exec_lflt : exec .lflt s = .next s.takeLaneFault := congrArg _ (whenRunning_of_running hp State.takeLaneFault)

theorem exec_crossingDeadlineExpiry : exec .crossingDeadlineExpiry s = .next s.takeCrossingExpiry :=
  congrArg _ (whenRunning_of_running hp State.takeCrossingExpiry)

/-- With no crossing in progress the lane's events change nothing. -/
theorem laneEvents_ignored (h : s.lc.crossing = none) :
    exec .ldone s = .next s ∧ exec .lflt s = .next s ∧ exec .crossingDeadlineExpiry s = .next s := by
  rw [exec_ldone hp, exec_lflt hp, exec_crossingDeadlineExpiry hp]
  simp only [State.takeDone, State.takeLaneFault, State.takeCrossingExpiry, h, and_self]

variable (h : s.lc.crossing = some c)
include h

theorem exec_ldone_delivers : exec .ldone s = .next (s.deliver c).settle := by
  rw [exec_ldone hp]
  simp only [State.takeDone, h]

theorem exec_lflt_fails : exec .lflt s = .next (s.failCrossing c .laneFault).settle := by
  rw [exec_lflt hp]
  simp only [State.takeLaneFault, h]

theorem exec_expiry_running {n : Nat} (hc : c.state = .running n) :
    exec .crossingDeadlineExpiry s = .next (s.failCrossing c .laneOverdue).settle := by
  rw [exec_crossingDeadlineExpiry hp]
  simp only [State.takeCrossingExpiry, h, hc, reduceCtorEq, if_false]

theorem exec_expiry_stopped (hc : c.state = .stopped) : exec .crossingDeadlineExpiry s = .next s := by
  rw [exec_crossingDeadlineExpiry hp]
  simp only [State.takeCrossingExpiry, h, hc, if_true]

end

/-! ## The end that finishes the order (R95, R96) -/

/-- What LDONE at a station and every failure share: the record and the lines are cleared, the bin has its place, and the order
finishes. -/
def State.endCrossing (c : Crossing) (p : Place) (out : Outcome) (s : State) : State :=
  (s.clearCrossing.setPlace c.bin p).finishOrder c.order out

theorem deliver_pick {k : PickNo} (h : c.dest = .station (.pick k)) :
    s.deliver c = (s.endCrossing c (.atStation (.pick k)) .ok).arriveAtPick k c.bin := by
  simp only [State.deliver, h]
  rfl

theorem deliver_ret {p : Position} (h : c.dest = .station (.ret p)) :
    s.deliver c = s.endCrossing c (.atStation (.ret p)) .ok := by
  simp only [State.deliver, h]
  rfl

/-- The capture of a failed crossing (R96). -/
def crossingCapture (c : Crossing) (kind : FaultKind) : Capture :=
  { kind := kind, shuttle := none, order := some c.order, bin := some c.bin, stage := some .crossing, code := none }

theorem failCrossing_eq (c : Crossing) (kind : FaultKind) :
    s.failCrossing c kind = (s.endCrossing c .unverified .fault).capture (crossingCapture c kind) := rfl

section
variable (horder : s.order? c.order = some r) (p : Place) (out : Outcome)
include horder

/-- Such an end changes the tables, the orders, the shuttles, the lane's record and lines, and the order's destination. -/
theorem endCrossing_frame : ∃ tab ou alc, s.endCrossing c p out = { s with
    tab := tab, ou := ou, alc := alc, lc := s.clearCrossing.lc
    su := (s.endDestination c.order r.bin (r.outcomeOf out) r.dest).su } := by
  have hplaced : (s.clearCrossing.setPlace c.bin p).order? c.order = some r := horder
  rw [State.endCrossing, finishOrder_eq hplaced, endDestination_eq (s := s) (t := s.clearCrossing.setPlace c.bin p) rfl]
  exact ⟨_, _, _, rfl⟩

theorem lane_endCrossing : let u := s.endCrossing c p out
    u.lc.crossing = none ∧ u.lc.lsrc = 0 ∧ u.lc.ldst = 0 := by
  obtain ⟨tab, ou, alc, h⟩ := endCrossing_frame horder p out
  rw [h]
  exact ⟨rfl, rfl, rfl⟩

theorem order?_endCrossing (hcancel : r.cancel = false) : (s.endCrossing c p out).order? c.order =
    some { r with stage := .finished out, pendingOutcome := none } := by
  have hout : r.outcomeOf out = out := by rw [Order.outcomeOf, hcancel]; rfl
  have hplaced : (s.clearCrossing.setPlace c.bin p).order? c.order = some r := horder
  rw [State.endCrossing, order?_finishOrder _ hplaced, if_pos rfl, hout]

theorem binRec?_endCrossing (hbin : r.bin = c.bin) (hrec : s.binRec? c.bin = some rec) :
    (s.endCrossing c p out).binRec? c.bin = some { rec with place := p, holder := none } := by
  have hplaced : (s.clearCrossing.setPlace c.bin p).order? c.order = some r := horder
  have hrec' : (s.clearCrossing.setPlace c.bin p).binRec? r.bin = some { rec with place := p } := by
    rw [hbin]
    exact binRec?_setPlace_self (s := s.clearCrossing) hrec p
  rw [← hbin]
  exact binRec?_finishOrder_self hplaced out hrec'

theorem su_endCrossing :
    (s.endCrossing c p out).su = (s.endDestination c.order r.bin (r.outcomeOf out) r.dest).su := by
  obtain ⟨tab, ou, alc, h⟩ := endCrossing_frame horder p out
  rw [h]

theorem au_endCrossing : (s.endCrossing c p out).au = s.au := by
  obtain ⟨tab, ou, alc, h⟩ := endCrossing_frame horder p out
  rw [h]

end

/-! ## Delivery -/

/-- A bin that joins a pick station's queue changes that queue and the latches (R100). -/
theorem arriveAtPick_frame (s : State) (k : PickNo) (b : BinNo) :
    ∃ l, s.arriveAtPick k b = { s.setPresentationQueue k (s.presentationQueue k ++ [b]) with au.latches := l } := by
  simp only [State.arriveAtPick]
  split
  · exact ⟨_, rfl⟩
  · exact ⟨s.au.latches, rfl⟩

theorem stationReady_arriveAtPick {k : PickNo} (h : s.presentationQueue k = []) (b : BinNo) :
    (s.arriveAtPick k b).pendingCause .stationReady = true := by
  simp only [State.arriveAtPick, if_pos h]
  exact latchSet_latch_self .stationReady

section
variable (horder : s.order? c.order = some r) (hbin : r.bin = c.bin) (hcancel : r.cancel = false)
  (hrec : s.binRec? c.bin = some rec)
include horder

theorem pick_endCrossing {k : PickNo} (hdest : r.dest = some (.pick k)) (p : Place) (out : Outcome) :
    (s.endCrossing c p out).presentationQueue k = s.presentationQueue k
      ∧ (s.endCrossing c p out).reserved k = s.reserved k - 1 := by
  have hsu := su_endCrossing horder p out
  constructor
  · rw [State.presentationQueue, hsu, hdest]
    rfl
  · rw [State.reserved, hsu]
    exact reserved_endDestination hdest r.bin _

include hbin hcancel hrec

/-- A crossing delivered to a pick station (R52, R95, R100). -/
theorem deliver_pick_reads {k : PickNo} (hc : c.dest = .station (.pick k)) (hdest : r.dest = some (.pick k)) :
    let u := s.deliver c
    u.lc.crossing = none ∧ u.lc.lsrc = 0 ∧ u.lc.ldst = 0
      ∧ u.order? c.order = some { r with stage := .finished .ok, pendingOutcome := none }
      ∧ u.binRec? c.bin = some { rec with place := .atStation (.pick k), holder := none }
      ∧ u.presentationQueue k = s.presentationQueue k ++ [c.bin] ∧ u.reserved k = s.reserved k - 1
      ∧ (s.presentationQueue k = [] → u.pendingCause .stationReady = true) := by
  obtain ⟨hqueue, hreserved⟩ := pick_endCrossing horder hdest (.atStation (.pick k)) .ok
  obtain ⟨hcrossing, hsrc, hdst⟩ := lane_endCrossing horder (.atStation (.pick k)) .ok
  have hready := stationReady_arriveAtPick (s := s.endCrossing c (.atStation (.pick k)) .ok) (k := k) (b := c.bin)
  obtain ⟨l, hl⟩ := arriveAtPick_frame (s.endCrossing c (.atStation (.pick k)) .ok) k c.bin
  rw [deliver_pick hc]
  refine ⟨?_, ?_, ?_, ?_, ?_, ?_, ?_, fun hempty => hready (hqueue.trans hempty)⟩
  all_goals rw [hl]
  · exact hcrossing
  · exact hsrc
  · exact hdst
  · exact order?_endCrossing horder _ _ hcancel
  · exact binRec?_endCrossing horder _ _ hbin hrec
  · rw [hqueue]
    exact (presentationQueue_set _ k k _).trans (if_pos rfl)
  · exact hreserved

/-- A crossing delivered to the position that waits for its order (R95, R130). -/
theorem deliver_ret_reads {p : Position} (hc : c.dest = .station (.ret p)) (hdest : r.dest = some (.ret p))
    (hp : s.position p = .arriving c.order) :
    let u := s.deliver c
    u.lc.crossing = none ∧ u.lc.lsrc = 0 ∧ u.lc.ldst = 0
      ∧ u.order? c.order = some { r with stage := .finished .ok, pendingOutcome := none }
      ∧ u.binRec? c.bin = some { rec with place := .atStation (.ret p), holder := none }
      ∧ u.position p = .presented c.bin := by
  obtain ⟨hcrossing, hsrc, hdst⟩ := lane_endCrossing horder (.atStation (.ret p)) .ok
  have hposition : (s.endCrossing c (.atStation (.ret p)) .ok).position p = .presented c.bin := by
    have hends := position_endDestination hdest hp r.bin (r.outcomeOf .ok)
    rw [if_pos (outcomeOf_eq_ok.2 ⟨hcancel, rfl⟩), hbin] at hends
    rw [← hends, ← hbin]
    have hsu := su_endCrossing horder (.atStation (.ret p)) .ok
    cases p <;> simp only [State.position, hsu]
  rw [deliver_ret hc]
  exact ⟨hcrossing, hsrc, hdst, order?_endCrossing horder _ _ hcancel, binRec?_endCrossing horder _ _ hbin hrec, hposition⟩

/-- A crossing that fails (R96). -/
theorem failCrossing_reads (kind : FaultKind) :
    let u := s.failCrossing c kind
    u.lc.crossing = none ∧ u.lc.lsrc = 0 ∧ u.lc.ldst = 0
      ∧ u.order? c.order = some { r with stage := .finished .fault, pendingOutcome := none }
      ∧ u.binRec? c.bin = some { rec with place := .unverified, holder := none }
      ∧ u.au.fault = some (captured (crossingCapture c kind) s.au.fault) := by
  obtain ⟨hcrossing, hsrc, hdst⟩ := lane_endCrossing horder .unverified .fault
  refine ⟨hcrossing, hsrc, hdst, order?_endCrossing horder _ _ hcancel, binRec?_endCrossing horder _ _ hbin hrec, ?_⟩
  rw [failCrossing_eq, ← au_endCrossing horder .unverified .fault]
  rfl

omit hbin hcancel in
/-- A crossing delivered to a port IN place: the STOW is QUEUED (R53, R95). -/
theorem deliver_portIn_reads {a : Aisle} (hc : c.dest = .portIn a) :
    let u := s.deliver c
    u.lc.crossing = none ∧ u.lc.lsrc = 0 ∧ u.lc.ldst = 0 ∧ u.inPlace a = some c.bin
      ∧ u.binRec? c.bin = some { rec with place := .portIn a }
      ∧ u.order? c.order = some { r with stage := .run .queued }
      ∧ u.queue a = queueInsert u.priorityOf c.order (s.queue a) := by
  let landed : State := (s.clearCrossing.setInPlace a (some c.bin)).setPlace c.bin (.portIn a)
  have hlanded : landed.order? c.order = some r := horder
  have hu : s.deliver c = (landed.putOrder c.order { r with stage := .run .queued }).joinQueue a c.order := by
    rw [← setStage_of_some hlanded]
    simp only [State.deliver, hc]
    rfl
  rw [hu]
  refine ⟨rfl, rfl, rfl, ?place, ?bin, ?order, ?queue⟩
  case place => exact (inPlace_setInPlace s.clearCrossing a a _).trans (if_pos rfl)
  case bin => exact binRec?_setPlace_self (s := s.clearCrossing.setInPlace a (some c.bin)) hrec (.portIn a)
  case order => exact (order?_putOrder landed c.order c.order _).trans (if_pos rfl)
  case queue => exact (queue_setQueue _ a a _).trans (if_pos rfl)

end

/-- Settles O31: what each event does with the crossing in progress, and what each end leaves. -/
theorem crossingsEndByTheFirstEvent : Obligations.CrossingsEndByTheFirstEvent :=
  fun _ hp => ⟨laneEvents_ignored hp, fun _ h => ⟨exec_ldone_delivers hp h, exec_lflt_fails hp h,
    fun _ => exec_expiry_running hp h, exec_expiry_stopped hp h, fun _ _ horder hbin hcancel hrec =>
      ⟨fun _ => deliver_pick_reads horder hbin hcancel hrec, fun _ => deliver_ret_reads horder hbin hcancel hrec,
        fun _ => deliver_portIn_reads horder hrec, failCrossing_reads horder hbin hcancel hrec⟩⟩⟩

end Sys2Proof.Machine
end

section
/-! DISMISS (R103, R104), and the reply of a request that takes an entry behind its checks. -/
namespace Sys2Proof.Machine

variable {s : State} {o : Operands} {b : BinNo} {k : PickNo}

/-! ## Checks, and an entry for the order -/

/-- The reply of a request that makes its checks and then takes an entry for its order. -/
def entryReply (refusal : Option Code) (entry : Option OrderNo) (answer : OrderNo → Answer)
    (make : OrderNo → State) : Reply :=
  match refusal with
  | some c => .refuse c
  | none =>
    match entry with
    | none => .refuse .noOrderEntry
    | some e => .answer .ok (answer e) (make e)

section
variable {l m : List (Bool × Code)} {entry : Option OrderNo} {answer : OrderNo → Answer} {make : OrderNo → State}

theorem entryReply_refuses {c : Code} (h : firstFailing (l ++ [(entry.isSome, .noOrderEntry)]) = some c) :
    entryReply (firstFailing l) entry answer make = .refuse c := by
  rw [firstFailing_append] at h
  cases hl : firstFailing l with
  | some c' =>
    rw [hl] at h
    exact congrArg Reply.refuse (Option.some.inj h)
  | none =>
    rw [hl] at h
    cases entry with
    | none => exact congrArg Reply.refuse (Option.some.inj h)
    | some e => cases h

theorem entryReply_answers {e : OrderNo} (h : firstFailing (l ++ [(entry.isSome, .noOrderEntry)]) = none)
    (he : entry = some e) : entryReply (firstFailing l) entry answer make = .answer .ok (answer e) (make e) := by
  rw [firstFailing_append, Option.or_eq_none_iff] at h
  rw [h.1, he]
  rfl

theorem entryReply_append_refused {c : Code} (h : firstFailing l = some c) :
    entryReply (firstFailing (l ++ m)) entry answer make = .refuse c := by
  rw [firstFailing_append, h]
  rfl

theorem entryReply_append_passed (h : firstFailing l = none) :
    entryReply (firstFailing (l ++ m)) entry answer make = entryReply (firstFailing m) entry answer make := by
  rw [firstFailing_append, h]
  rfl

end

theorem priority?_of_eq {n : Nat} {pr : Fin 4} (h : pr.val = n) : priority? n = some pr := index?_of_eq h.symm

theorem priority?_of_large {n : Nat} (h : 3 < n) : priority? n = none := index?_of_le h

/-! ## The checks of R103 -/

section
variable (hk : o.station = k.val)
include hk

theorem dismiss_badPriority (h : 3 < o.cell 0) : dismiss o s = .refuse .badOperand := by
  refine (atContext_station (n := pickStation k) hk).trans ?_
  simp only [priority?_of_large h]

variable {pr : Fin 4} (hpr : pr.val = o.cell 0)
include hpr

theorem dismiss_fireHeld (h : (s.stationState (pickStation k)).isFireHeld = true) : dismiss o s = .refuse .zoneLocked := by
  refine (atContext_station (n := pickStation k) hk).trans ?_
  simp only [priority?_of_eq hpr, asPick?_pickStation]
  exact if_pos h

theorem dismiss_free (h : (s.stationState (pickStation k)).isFireHeld = false) :
    dismiss o s = dismissPresented pr k s := by
  refine (atContext_station (n := pickStation k) hk).trans ?_
  simp only [priority?_of_eq hpr, asPick?_pickStation]
  exact if_neg (Bool.eq_false_iff.1 h)

end

/-- The presented bin and a free entry are checked, and then the bin leaves. -/
theorem dismissPresented_eq {rest : List BinNo} (pr : Fin 4) (h : s.presentationQueue k = b :: rest) :
    dismissPresented pr k s = entryReply (firstFailing
      [(decide (s.classOf b = .view → s.pickedOutOf b = 0), .itemsOut), ((s.stationOut (pickStation k)).isNone, .outBusy),
       (decide (s.ou.quiet ≠ .quiet), .quiet)]) s.freeEntry?
      (fun e => { a0 := word e.val, a1 := binCell rest.head? })
      fun e => (s.dismiss e b rest pr k).settle := by
  have hview : (decide (s.classOf b ≠ .view) || decide (s.pickedOutOf b = 0)) =
      decide (s.classOf b = .view → s.pickedOutOf b = 0) := by
    simp [imp_iff_not_or]
  have hchecks : dismissRefusal s b k = firstFailing
      [(decide (s.classOf b = .view → s.pickedOutOf b = 0), .itemsOut), ((s.stationOut (pickStation k)).isNone, .outBusy),
       (decide (s.ou.quiet ≠ .quiet), .quiet)] := by
    rw [← hview]
    rfl
  simp only [dismissPresented, h, hchecks]
  rfl

/-! ## The bin leaves (R100, R104) -/

section
variable (s) (e : OrderNo) (b : BinNo) (rest : List BinNo) (pr : Fin 4) (k : PickNo)

theorem binRec?_placeOrder_self {s : State} {r : BinRec} (e : OrderNo) (q : Order) (h : s.binRec? q.bin = some r) :
    (s.placeOrder e q).binRec? q.bin = some { r with holder := some e } := by
  rw [binRec?_placeOrder, if_pos rfl, h]
  rfl

/-- The STOW of a dismissed bin (R104). -/
def State.dismissalStow : Order := plainOrder .stow .host b (s.homeAisle b) pr .waitingLane none

/-- Beside the latches, a dismissal places the STOW, and writes the queue, the out place and the bin's place. -/
theorem dismiss_frame : ∃ l, s.dismiss e b rest pr k =
    { (((s.placeOrder e (s.dismissalStow b pr)).setPresentationQueue k rest).setStationOut (pickStation k) (some b)).setPlace b
        (.stationOut (pickStation k)) with au.latches := l } := by
  simp only [State.dismiss]
  split
  · exact ⟨_, rfl⟩
  · exact ⟨_, rfl⟩

theorem order?_dismiss : (s.dismiss e b rest pr k).order? e = some (s.dismissalStow b pr) := by
  obtain ⟨l, hl⟩ := dismiss_frame s e b rest pr k
  rw [hl]
  exact (order?_placeOrder s e e _).trans (if_pos rfl)

theorem presentationQueue_dismiss : (s.dismiss e b rest pr k).presentationQueue k = rest := by
  obtain ⟨l, hl⟩ := dismiss_frame s e b rest pr k
  rw [hl]
  exact (presentationQueue_set _ k k rest).trans (if_pos rfl)

theorem stationOut_dismiss : (s.dismiss e b rest pr k).stationOut (pickStation k) = some b := by
  obtain ⟨l, hl⟩ := dismiss_frame s e b rest pr k
  rw [hl]
  exact (stationOut_setStationOut _ (pickStation k) (pickStation k) (some b)).trans (if_pos rfl)

theorem stationReady_dismiss (h : rest ≠ []) : (s.dismiss e b rest pr k).pendingCause .stationReady = true := by
  simp only [State.dismiss, if_neg h]
  exact latchSet_latch_self .stationReady

end

theorem binRec?_dismiss {r : BinRec} (h : s.binRec? b = some r) (e : OrderNo) (rest : List BinNo) (pr : Fin 4) (k : PickNo) :
    (s.dismiss e b rest pr k).binRec? b = some { r with holder := some e, place := .stationOut (pickStation k) } := by
  obtain ⟨l, hl⟩ := dismiss_frame s e b rest pr k
  have hheld : (s.placeOrder e (s.dismissalStow b pr)).binRec? b = some { r with holder := some e } :=
    binRec?_placeOrder_self e (s.dismissalStow b pr) h
  rw [hl]
  exact binRec?_setPlace_self (s := ((s.placeOrder e (s.dismissalStow b pr)).setPresentationQueue k rest).setStationOut
    (pickStation k) (some b)) hheld (.stationOut (pickStation k))

/-- Settles O33: the checks in their order, and the STOW with the places that the bin's leaving writes. -/
theorem dismissSendsThePresentedBinOut : Obligations.DismissSendsThePresentedBinOut := by
  intro s k hw hk first
  have hfirst : firstFailing first = none →
      s.operands.cell 0 ≤ 3 ∧ (s.stationState (pickStation k)).isFireHeld = false := by
    simp [first]
  refine ⟨fun c hc => ?first, fun hpass hempty => ?empty, fun hpass b rest hqueue => ?presented⟩
  case first =>
    by_cases hpr : s.operands.cell 0 ≤ 3
    · rw [firstFailing_pass (decide_eq_true hpr)] at hc
      cases hheld : (s.stationState (pickStation k)).isFireHeld with
      | true =>
        rw [hheld] at hc
        cases hc
        exact next_refused hw (dismiss_fireHeld (pr := ⟨_, Nat.lt_succ_of_le hpr⟩) hk rfl hheld)
      | false =>
        rw [hheld] at hc
        cases hc
    · rw [firstFailing_fail (by simpa using hpr)] at hc
      cases hc
      exact next_refused hw (dismiss_badPriority hk (Nat.lt_of_not_le hpr))
  all_goals
    obtain ⟨hpriority, hfree⟩ := hfirst hpass
    have hdismiss := fun pr hpr => dismiss_free (s := s.storeRequest 0x33) (pr := pr) hk hpr hfree
    let given : Fin 4 := ⟨s.operands.cell 0, Nat.lt_succ_of_le hpriority⟩
  case empty =>
    have hnone : (s.storeRequest 0x33).presentationQueue k = [] := hempty
    refine next_refused hw ((hdismiss given rfl).trans ?_)
    simp only [dismissPresented, hnone]
  case presented =>
    have heval := fun pr hpr => (hdismiss pr hpr).trans (dismissPresented_eq (s := s.storeRequest 0x33) pr hqueue)
    refine ⟨fun c hc => next_refused hw ((heval given rfl).trans (entryReply_refuses (c := c) hc)),
      fun e pr hc he hpr => ⟨?_, order?_dismiss (s.storeRequest 0x33) e b rest pr k,
      fun r hr => binRec?_dismiss (s := s.storeRequest 0x33) hr e rest pr k,
      presentationQueue_dismiss (s.storeRequest 0x33) e b rest pr k,
      stationOut_dismiss (s.storeRequest 0x33) e b rest pr k, stationReady_dismiss (s.storeRequest 0x33) e b rest pr k⟩⟩
    refine (next_answered hw ((heval pr hpr).trans (entryReply_answers (e := e) hc he))).trans ?_
    cases rest <;> rfl

end Sys2Proof.Machine
end

section
/-! RECLAIM PLACE (R105). -/
namespace Sys2Proof.Machine

variable {s : State} {o : Operands} {b : BinNo} {pl : Reclaimed} {pr : Fin 4} {r : BinRec}

/-! ## Its operands -/

theorem index?_eq_some {n k : Nat} {i : Fin n} : index? n k = some i ↔ k = i.val := by
  constructor
  · intro h
    have hlt : k < n := Nat.lt_of_not_le fun hle => by rw [index?_of_le hle] at h; cases h
    rw [index?, dif_pos hlt] at h
    cases h
    rfl
  · exact index?_of_eq

/-- The place that the kind and the number name. -/
theorem reclaimed?_eq_some : o.reclaimed? = some pl ↔
    (∃ a : Aisle, o.cell 1 = a.val ∧ ((o.cell 0 = 0 ∧ pl = .portOut a) ∨ (o.cell 0 = 1 ∧ pl = .portIn a)))
      ∨ ∃ n : StationNo, o.cell 0 = 2 ∧ o.cell 1 = n.val ∧ pl = .stationOut n := by
  unfold Operands.reclaimed?
  split
  next h => simp [h, Option.map_eq_some_iff, index?_eq_some, eq_comm (b := pl)]
  next h => simp [h, Option.map_eq_some_iff, index?_eq_some, eq_comm (b := pl)]
  next h => simp [h, Option.map_eq_some_iff, index?_eq_some, eq_comm (b := pl)]
  next h0 h1 h2 =>
    constructor
    · intro h
      cases h
    · rintro (⟨a, -, ⟨h, -⟩ | ⟨h, -⟩⟩ | ⟨n, h, -⟩)
      · exact (h0 h).elim
      · exact (h1 h).elim
      · exact (h2 h).elim

theorem reclaimContextBad_iff : o.reclaimContextBad = true ↔ o.cell 0 = 0 ∧ 4 < o.station := by
  rw [Operands.reclaimContextBad, Bool.and_eq_true, decide_eq_true_iff, Option.isNone_iff_eq_none]
  exact and_congr_right fun _ => index?_eq_none

theorem reclaimContextBad_of_kind (h : o.cell 0 ≠ 0) : o.reclaimContextBad = false :=
  Bool.eq_false_iff.2 fun hbad => h (reclaimContextBad_iff.1 hbad).1

theorem reclaimContextBad_of_station (h : o.station ≤ 4) : o.reclaimContextBad = false :=
  Bool.eq_false_iff.2 fun hbad => (reclaimContextBad_iff.1 hbad).2.not_ge h

theorem reclaimPlace_badOperand (h : o.reclaimed? = none ∨ 3 < o.cell 2 ∨ (o.cell 0 = 0 ∧ 4 < o.station)) :
    reclaimPlace o s = .refuse .badOperand := by
  by_cases hcontext : o.reclaimContextBad = true
  · exact if_pos hcontext
  · refine (if_neg hcontext).trans ?_
    rcases h with hplace | hpriority | hbad
    · simp only [hplace]
    · cases hplace : o.reclaimed? <;> simp only [priority?_of_large hpriority]
    · exact absurd (reclaimContextBad_iff.2 hbad) hcontext

/-- The order that a bin left at a place is given, by the kind of the place. -/
def reclaimAt (b : BinNo) (pr : Fin 4) (o : Operands) (s : State) : Reclaimed → Reply
  | .portOut _ => reclaimOut b pr o s
  | .portIn _ => reclaimStow b pr .queued s
  | .stationOut _ => reclaimStow b pr .waitingLane s

section
variable (hcontext : o.reclaimContextBad = false) (hplace : o.reclaimed? = some pl) (hpr : pr.val = o.cell 2)
include hcontext hplace hpr

theorem reclaimPlace_empty (h : s.reclaimedBin? pl = none) : reclaimPlace o s = .refuse .noRecord := by
  simp only [reclaimPlace, hcontext, hplace, priority?_of_eq hpr, h, Bool.false_eq_true, if_false]

variable (hbin : s.reclaimedBin? pl = some b)
include hbin

theorem reclaimPlace_refused {c : Code} (h : reclaimRefusal s b = some c) : reclaimPlace o s = .refuse c := by
  simp only [reclaimPlace, hcontext, hplace, priority?_of_eq hpr, hbin, h, Bool.false_eq_true, if_false]

theorem reclaimPlace_passed (h : reclaimRefusal s b = none) : reclaimPlace o s = reclaimAt b pr o s pl := by
  simp only [reclaimPlace, hcontext, hplace, priority?_of_eq hpr, hbin, h, Bool.false_eq_true, if_false]
  cases pl <;> rfl

end

/-! ## Its checks -/

theorem holderOf_of_some (h : s.binRec? b = some r) : s.holderOf b = r.holder := by
  simp only [State.holderOf, h]

/-- Checks 3 and 4 of R105. -/
theorem reclaimRefusal_eq (h : s.binRec? b = some r) :
    reclaimRefusal s b = firstFailing [(r.holder.isNone, .inUse), (decide (s.zoneState 3 = .normal), .zoneLocked)] := by
  rw [← holderOf_of_some h]
  rfl

/-- Checks 6 to 9 of R105. -/
theorem reclaimOutRefusal_eq (k : PickNo) : reclaimOutRefusal s b k = firstFailing
    [(decide (s.classOf b = .inBuilding ∨ s.classOf b = .view → s.tab.supervised[pickStation k] = true), .access),
     (decide (s.stationState (pickStation k) = .opened), .stationClosed),
     (decide ((s.presentationQueue k).length + s.reserved k < 4), .stationFull),
     (decide (s.ou.quiet = .active), .quiet)] := by
  rw [← classAdmitted_eq]
  rfl

/-! ## Its orders -/

/-- The FETCH of a bin left in a port OUT place (R105). -/
def State.reclaimFetch (s : State) (b : BinNo) (pr : Fin 4) (k : PickNo) : Order :=
  plainOrder .fetch .host b (s.homeAisle b) pr .waitingLane (some (.pick k))

/-- The STOW of a bin left in a port IN place or a station out place (R105). -/
def State.reclaimedStow (s : State) (b : BinNo) (pr : Fin 4) (st : RunStage) : Order :=
  plainOrder .stow .host b (s.homeAisle b) pr st none

theorem reclaimOut_eq {k : PickNo} (hk : o.station = k.val) : reclaimOut b pr o s =
    entryReply (reclaimOutRefusal s b k) s.freeEntry? (fun e => reclaimAnswer e b) fun e =>
      ((((s.putOrder e (s.reclaimFetch b pr k)).setHolder b (some e)).setReserved k (s.reserved k + 1))).settle := by
  have hstation : o.station? = some (pickStation k) := index?_of_eq hk
  have hpick : o.pick? = some k := index?_of_eq hk
  simp only [reclaimOut, hstation, hpick]
  rfl

theorem reclaimStow_eq (st : RunStage) : reclaimStow b pr st s =
    entryReply (firstFailing [(decide (s.ou.quiet ≠ .quiet), .quiet)]) s.freeEntry? (fun e => reclaimAnswer e b) fun e =>
      (s.placeOrder e (s.reclaimedStow b pr st)).settle := by
  by_cases hquiet : s.ou.quiet = .quiet
  · rw [firstFailing_fail (by simpa using hquiet), reclaimStow, if_pos hquiet]
    rfl
  · rw [firstFailing_pass (decide_eq_true hquiet), reclaimStow, if_neg hquiet]
    rfl

theorem reclaimAt_stow {st : RunStage}
    (h : ((∃ a, pl = .portIn a) ∧ st = .queued) ∨ ((∃ n, pl = .stationOut n) ∧ st = .waitingLane)) :
    reclaimAt b pr o s pl = reclaimStow b pr st s := by
  rcases h with ⟨⟨a, rfl⟩, rfl⟩ | ⟨⟨n, rfl⟩, rfl⟩
  · rfl
  · rfl

/-- The checks of every kind of place are made first. -/
theorem reclaimPlace_eq {l : List (Bool × Code)} {entry : Option OrderNo} {answer : OrderNo → Answer}
    {make : OrderNo → State} (hcontext : o.reclaimContextBad = false) (hplace : o.reclaimed? = some pl)
    (hpr : pr.val = o.cell 2) (hbin : s.reclaimedBin? pl = some b) (hrec : s.binRec? b = some r)
    (hreply : reclaimAt b pr o s pl = entryReply (firstFailing l) entry answer make) :
    reclaimPlace o s = entryReply
      (firstFailing ([(r.holder.isNone, .inUse), (decide (s.zoneState 3 = .normal), .zoneLocked)] ++ l)) entry answer make := by
  have hchecks := reclaimRefusal_eq hrec
  cases hrefusal : reclaimRefusal s b with
  | some c =>
    rw [entryReply_append_refused (hchecks.symm.trans hrefusal)]
    exact reclaimPlace_refused hcontext hplace hpr hbin hrefusal
  | none =>
    rw [entryReply_append_passed (hchecks.symm.trans hrefusal), ← hreply]
    exact reclaimPlace_passed hcontext hplace hpr hbin hrefusal

/-- Settles O34: the FETCH and the STOW, each behind its checks, and the refusals of the operands. -/
theorem reclaimGivesTheBinAnOrder : Obligations.ReclaimGivesTheBinAnOrder := by
  refine fun s hw => ⟨fun a b r k hkind hnumber hcell hbin hrec hk => ?fetch,
    fun pl b r st hplace hst hcell hbin hrec => ?stow, fun pl hplace hcell hstation hbin => ?empty,
    fun h => next_refused hw (reclaimPlace_badOperand h), fun pl => reclaimed?_eq_some⟩
  case fetch =>
    have hplace : s.operands.reclaimed? = some (.portOut a) := reclaimed?_eq_some.2 (.inl ⟨a, hnumber, .inl ⟨hkind, rfl⟩⟩)
    have hcontext : s.operands.reclaimContextBad = false := reclaimContextBad_of_station (by omega)
    have hout (pr : Fin 4) := reclaimOut_eq (s := s.storeRequest 0x34) (b := b) (pr := pr) hk
    rw [reclaimOutRefusal_eq] at hout
    have heval (pr : Fin 4) (hpr : pr.val = s.operands.cell 2) :=
      reclaimPlace_eq (s := s.storeRequest 0x34) hcontext hplace hpr hbin hrec (hout pr)
    exact ⟨fun c hc => next_refused hw ((heval ⟨_, Nat.lt_succ_of_le hcell⟩ rfl).trans (entryReply_refuses (c := c) hc)),
      fun e pr hc he hpr => next_answered hw ((heval pr hpr).trans (entryReply_answers (e := e) hc he))⟩
  case stow =>
    have hkind : s.operands.cell 0 ≠ 0 := by
      rcases reclaimed?_eq_some.1 hplace with ⟨a, -, ⟨-, rfl⟩ | ⟨hone, -⟩⟩ | ⟨n, htwo, -⟩
      · simp at hst
      · omega
      · omega
    have heval (pr : Fin 4) (hpr : pr.val = s.operands.cell 2) :=
      reclaimPlace_eq (s := s.storeRequest 0x34) (reclaimContextBad_of_kind hkind) hplace hpr hbin hrec
        ((reclaimAt_stow hst).trans (reclaimStow_eq st))
    exact ⟨fun c hc => next_refused hw ((heval ⟨_, Nat.lt_succ_of_le hcell⟩ rfl).trans (entryReply_refuses (c := c) hc)),
      fun e pr hc he hpr => next_answered hw ((heval pr hpr).trans (entryReply_answers (e := e) hc he))⟩
  case empty =>
    exact next_refused hw (reclaimPlace_empty (s := s.storeRequest 0x34) (pr := ⟨_, Nat.lt_succ_of_le hcell⟩)
      (reclaimContextBad_of_station hstation) hplace rfl hbin)

end Sys2Proof.Machine
end

section
/-! OPEN STATION, CLOSE STATION and SET STATION (R101, R102, R133). -/
namespace Sys2Proof.Machine

variable {s : State} {n : StationNo}

/-! ## Closing station 4 (R133) -/

/-- A position that no longer wants a bin (R133). -/
def PosState.unwanting (st : PosState) : PosState := if st = .wanting then .empty else st

theorem setPosition_position (s : State) (p : Position) : s.setPosition p (s.position p) = s := by
  cases p <;> rfl

theorem stopWanting_eq (s : State) (p : Position) : s.stopWanting p = s.setPosition p (s.position p).unwanting := by
  by_cases h : s.position p = .wanting
  · rw [State.stopWanting, PosState.unwanting, if_pos h, if_pos h]
  · rw [State.stopWanting, PosState.unwanting, if_neg h, if_neg h, setPosition_position]

/-- All that the closing of station 4 changes beside the station's state. -/
theorem closeReturn_eq (s : State) : s.closeReturn =
    ((s.withdrawClaims [8, 9]).setPosition .intake (s.position .intake).unwanting).setPosition .hold
      (s.position .hold).unwanting := by
  rw [State.closeReturn, stopWanting_eq, stopWanting_eq]
  rfl

theorem position_closeReturn (s : State) (p : Position) :
    s.closeReturn.position p = if s.position p = .wanting then .empty else s.position p := by
  rw [closeReturn_eq]
  cases p <;> rfl

theorem claims_closeReturn (s : State) :
    s.closeReturn.ou.claims = s.ou.claims.filter fun c => !(c.rank == 8 || c.rank == 9) := by
  have hclaims : s.closeReturn.ou.claims = (s.withdrawClaims [8, 9]).ou.claims := by
    rw [closeReturn_eq]
    rfl
  simp only [hclaims, State.withdrawClaims_ou_claims, List.contains_cons, List.contains_nil, Bool.or_false]

/-! ## The requests -/

theorem closeStation_other (h : n.val ≠ 4 ∨ s.stationState n ≠ .opened) :
    s.closeStation n = s.setStationState n (s.stationState n).afterClose := by
  refine if_neg ?_
  rintro ⟨rfl, hopen⟩
  exact h.elim (· rfl) (· hopen)

theorem closeStation_return (hn : n.val = 4) (hopen : s.stationState n = .opened) :
    s.closeStation n = (s.setStationState n (s.stationState n).afterClose).closeReturn :=
  if_pos ⟨Fin.ext hn, hopen⟩

section
variable (hw : s.windowFree = true) (hn : s.operands.station = n.val)
include hw hn

theorem exec_openStation : exec .openStation s = .next
    (((s.storeRequest 0x30).setStationState n (s.stationState n).afterOpen).settle.endRequest .ok
      (s.stationState n).afterOpen.answer) :=
  next_answered (e := openStation) hw (atContext_station hn)

theorem exec_closeStation : exec .closeStation s = .next
    (((s.storeRequest 0x31).closeStation n).endRequest .ok (s.stationState n).afterClose.answer) :=
  next_answered (e := closeStation) hw (atContext_station hn)

theorem exec_closeStation_other (h : n.val ≠ 4 ∨ s.stationState n ≠ .opened) : exec .closeStation s = .next
    ((s.setStationState n (s.stationState n).afterClose).requestDone 0x31 .ok (s.stationState n).afterClose.answer) := by
  rw [exec_closeStation hw hn, closeStation_other (s := s.storeRequest 0x31) h]
  rfl

theorem exec_closeStation_return (h4 : n.val = 4) (hopen : s.stationState n = .opened) : exec .closeStation s = .next
    ((s.setStationState n (s.stationState n).afterClose).closeReturn.requestDone 0x31 .ok
      (s.stationState n).afterClose.answer) := by
  rw [exec_closeStation hw hn, closeStation_return (s := s.storeRequest 0x31) h4 hopen, closeReturn_eq, closeReturn_eq]
  rfl

theorem exec_setStation {f : Bool} (hf : s.operands.cell 0 = flagCode f) : exec .setStation s = .next
    (State.requestDone 0x32 .ok { a0 := word (flagCode s.tab.supervised[n]) }
      { s with tab.supervised := s.tab.supervised.set n f }) := by
  refine next_answered (e := setStation)
    (t := { s.storeRequest 0x32 with tab.supervised := s.tab.supervised.set n f }) hw ((atContext_station hn).trans ?_)
  simp only [hf, flag?_flagCode]
  rfl

theorem exec_setStation_bad (h : 1 < s.operands.cell 0) :
    exec .setStation s = .next (s.requestDone 0x32 .badOperand {}) :=
  next_refused (e := setStation) hw ((atContext_station hn).trans (by simp only [flag?_of_large h]))

end

/-- Settles O32: each request's reply, and what station 4's closing does to its claims and positions. -/
theorem stationsOpenCloseAndAreSupervised : Obligations.StationsOpenCloseAndAreSupervised := by
  intro s n hw hn afterOpen afterClose answer
  have hopen : (s.stationState n).afterOpen = afterOpen := rfl
  have hclose : (s.stationState n).afterClose = afterClose := rfl
  have hanswer : ∀ st : StationState, st.answer = answer st
    | .closed | .opened | .fireHeld false | .fireHeld true => rfl
  rw [← hopen, ← hclose, ← hanswer, ← hanswer]
  exact ⟨exec_openStation hw hn, exec_closeStation_other hw hn,
    fun h4 hopen => ⟨exec_closeStation_return hw hn h4 hopen, position_closeReturn s, claims_closeReturn s⟩,
    fun f => exec_setStation hw hn, exec_setStation_bad hw hn⟩

end Sys2Proof.Machine
end

section
/-! READ STATION and READ LANE (R107). -/
namespace Sys2Proof.Machine

variable {s : State}

/-! ## Cells with marks for none (R178, R180) -/

theorem binCell_eq (b : Option BinNo) : binCell b = match b with | some b => word b.val | none => 0xFFFF := by
  cases b <;> rfl

theorem holderCell_eq (b : Option BinNo) : s.holderCell b = match b with
    | some b => (match s.binRec? b with
      | some r => (match r.holder with | some o => word o.val | none => 0xFFFF)
      | none => 0xFFFF)
    | none => 0xFFFF := by
  cases b with
  | none => rfl
  | some b =>
    cases hrec : s.binRec? b with
    | none => simp only [State.holderCell, Option.bind_some, State.holderOf, hrec]; rfl
    | some r =>
      simp only [State.holderCell, Option.bind_some, State.holderOf, hrec]
      cases r.holder <;> rfl

/-! ## The requests -/

section
variable (hw : s.windowFree = true)
include hw

theorem exec_readStation {n : StationNo} (h : s.operands.cell 0 = n.val) :
    exec .readStation s = .next (s.requestDone 0x35 .ok (s.stationAnswer n)) :=
  next_answered (e := readStation) (t := s.storeRequest 0x35) hw (by simp only [readStation, index?_of_eq h]; rfl)

theorem exec_readStation_bad (h : 4 < s.operands.cell 0) :
    exec .readStation s = .next (s.requestDone 0x35 .badOperand {}) :=
  next_refused (e := readStation) hw (by simp only [readStation, index?_of_le (Nat.succ_le_of_lt h)])

theorem exec_readLane (h : s.operands.cell 0 = 0xFFFF) :
    exec .readLane s = .next (s.requestDone 0x36 .ok s.laneAnswer) :=
  next_answered (e := readLane) (t := s.storeRequest 0x36) hw (if_pos h)

theorem exec_readLane_port {a : Aisle} (h : s.operands.cell 0 = a.val) :
    exec .readLane s = .next (s.requestDone 0x36 .ok (s.portAnswer a)) :=
  next_answered (e := readLane) (t := s.storeRequest 0x36) hw
    ((if_neg (by omega)).trans (by simp only [index?_of_eq h]; rfl))

theorem exec_readLane_bad (h : 5 < s.operands.cell 0) (hlane : s.operands.cell 0 ≠ 0xFFFF) :
    exec .readLane s = .next (s.requestDone 0x36 .badOperand {}) :=
  next_refused (e := readLane) hw ((if_neg hlane).trans (by simp only [index?_of_le (Nat.succ_le_of_lt h)]))

end

theorem stationAnswer_pick (k : PickNo) : s.stationAnswer (pickStation k) =
    { a0 := binCell (s.presentationQueue k)[0]?, a1 := binCell (s.presentationQueue k)[1]?
      a2 := binCell (s.presentationQueue k)[2]?, a3 := binCell (s.presentationQueue k)[3]? } := by
  simp only [State.stationAnswer, asPick?_pickStation]
  rfl

theorem stationAnswer_return : s.stationAnswer 4 =
    { a0 := binCell (s.stationOut 4), a1 := binCell s.su.intake.bin?, a2 := binCell s.su.hold.bin?
      a3 := bytePair s.su.intake.code s.su.hold.code } := rfl

theorem laneAnswer_crossing {c : Crossing} (h : s.lc.crossing = some c) : s.laneAnswer =
    { a0 := bytePair c.source.code c.dest.code, a1 := word c.bin.val
      a2 := bytePair c.order.val c.state.code, a3 := word s.lc.pointer.val } := by
  simp only [State.laneAnswer, h]

theorem laneAnswer_free (h : s.lc.crossing = none) : s.laneAnswer =
    { a0 := 0xFFFF, a1 := 0xFFFF, a2 := 0xFFFF, a3 := word s.lc.pointer.val } := by
  simp only [State.laneAnswer, h]
  rfl

/-- Settles O35: each read's number, and the answer cell by cell. -/
theorem stationAndLaneReadsAnswer : Obligations.StationAndLaneReadsAnswer := by
  intro s hw bin holder
  have hbin : binCell = bin := funext binCell_eq
  have hholder : s.holderCell = holder := funext holderCell_eq
  rw [← hbin, ← hholder]
  refine ⟨fun k h => ?_, fun h => ?_, exec_readStation_bad hw, fun a => exec_readLane_port hw, exec_readLane_bad hw,
    fun h c hc => ?_, fun h hfree => ?_⟩
  · rw [← stationAnswer_pick]
    exact exec_readStation hw h
  · exact exec_readStation (n := 4) hw h
  · rw [exec_readLane hw h, laneAnswer_crossing hc]
    rfl
  · rw [exec_readLane hw h, laneAnswer_free hfree]

end Sys2Proof.Machine
end

section
/-! The station checks of handling requests and record requests (R109). -/
namespace Sys2Proof.Machine

variable {s : State} {o : Operands} {k : PickNo}

/-! ## Operand ranges -/

theorem tagInRange_iff : o.tagInRange = true ↔ 1 ≤ o.tag ∧ o.tag ≤ 16777215 := validTag_iff

theorem tagAndPatronInRange_iff : o.tagAndPatronInRange = true ↔
    (1 ≤ o.tag ∧ o.tag ≤ 16777215) ∧ 1 ≤ o.secondPatron ∧ o.secondPatron ≤ 1048575 := by
  rw [Operands.tagAndPatronInRange, Bool.and_eq_true, validTag_iff, validPatron_iff]

theorem tagInRange_of_both (h : o.tagAndPatronInRange = true) : o.tagInRange = true :=
  (Bool.and_eq_true_iff.1 h).1

/-! ## Stations -/

theorem heldStation_iff {n : StationNo} : s.heldStation n = true ↔ ∃ r, s.stationState n = .fireHeld r := by
  rw [State.heldStation]
  cases s.stationState n <;> simp [StationState.isFireHeld]

theorem takesRecords_iff {st : StationState} : st.takesRecords = true ↔ st = .opened ∨ st = .fireHeld true := by
  cases st <;> simp [StationState.takesRecords]

/-! ## Handling requests and record requests (R109) -/

section
variable {inRange : Operands → Bool} {e : PickNo → Evaluation} (hr : inRange o = true)
include hr

theorem handlingAt_pick (hk : o.station = k.val) : handlingAt inRange e o s =
    if s.heldStation (pickStation k) then .refuse .zoneLocked
    else if s.stationState (pickStation k) = .opened then e k o s
    else .refuse .stationClosed := by
  refine (atContext_station (n := pickStation k) hk).trans ((if_pos hr).trans ?_)
  simp only [asPick?_pickStation]

theorem handlingAt_opened (hk : o.station = k.val) (h : s.stationState (pickStation k) = .opened) :
    handlingAt inRange e o s = e k o s := by
  rw [handlingAt_pick hr hk, if_neg (by simp [heldStation_iff, h]), if_pos h]

theorem handlingAt_fireHeld {r : Bool} (hk : o.station = k.val) (h : s.stationState (pickStation k) = .fireHeld r) :
    handlingAt inRange e o s = .refuse .zoneLocked := by
  rw [handlingAt_pick hr hk, if_pos (heldStation_iff.2 ⟨r, h⟩)]

theorem handlingAt_closed (hk : o.station = k.val) (h : s.stationState (pickStation k) = .closed) :
    handlingAt inRange e o s = .refuse .stationClosed := by
  rw [handlingAt_pick hr hk, if_neg (by simp [heldStation_iff, h]), if_neg (by simp [h])]

end

section
variable {inRange : Operands → Bool} {e : Evaluation} (hr : inRange o = true)
include hr

theorem recordAt_pick (hk : o.station = k.val) : recordAt inRange e o s =
    if (s.stationState (pickStation k)).takesRecords then e o s else .refuse .stationClosed := by
  refine (atContext_station (n := pickStation k) hk).trans ((if_pos hr).trans ?_)
  simp only [asPick?_pickStation]

theorem recordAt_open (hk : o.station = k.val)
    (h : s.stationState (pickStation k) = .opened ∨ s.stationState (pickStation k) = .fireHeld true) :
    recordAt inRange e o s = e o s :=
  (recordAt_pick hr hk).trans (if_pos (takesRecords_iff.2 h))

theorem recordAt_closed (hk : o.station = k.val)
    (h : s.stationState (pickStation k) = .closed ∨ s.stationState (pickStation k) = .fireHeld false) :
    recordAt inRange e o s = .refuse .stationClosed :=
  (recordAt_pick hr hk).trans (if_neg (by rcases h with h | h <;> simp [takesRecords_iff, h]))

end

end Sys2Proof.Machine
end

section
/-! PICK and PUT BACK (R111 to R114). -/
namespace Sys2Proof.Machine

variable {s : State} {o : Operands} {k : PickNo} {i : Item} {b origin : BinNo} {r : BinRec}

/-! ## A reply behind its checks -/

/-- The reply of a request that makes its checks before it replies. -/
def checkedReply (refusal : Option Code) (reply : Reply) : Reply :=
  match refusal with
  | some c => .refuse c
  | none => reply

theorem judged_of_checkedReply {i : Instr} {code : Word} {e : Evaluation} {checks : List (Bool × Code)}
    {refusal : Option Code} {c : Code} {a : Answer} {t : State} (hi : exec i s = .next (s.takeRequest code e))
    (hw : s.windowFree = true) (he : e s.operands (s.storeRequest code) = checkedReply refusal (.answer c a t))
    (hchecks : refusal = firstFailing checks) : Judged s i code checks (t.endRequest c a) :=
  judged_of_evaluation hi hw (fun hn => by rw [he, hchecks, hn]; rfl) fun c' hc => by rw [he, hchecks, hc]; rfl

/-! ## Their checks in the statement's words -/

theorem liesIn_eq (st : ItemState) (b : BinNo) : st.liesIn b = decide (st = .shelved b ∨ st = .held b) := by
  cases st <;> simp [ItemState.liesIn, Bool.beq_eq_decide_eq]

theorem pickRefusal_eq : pickRefusal i b r = firstFailing
    [(decide (i.state = .shelved b ∨ i.state = .held b), .notPresented), (decide (r.pickedOut < 63), .itemsOut)] := by
  rw [← liesIn_eq]
  rfl

theorem putBackRefusal_eq : putBackRefusal s i origin b r = firstFailing
    [(decide (s.classOf origin = .view → b = origin), .origin),
     (decide (r.kind = .hold → i.holds ≠ []), .wrongState),
     (decide (r.itemCount < r.capacity), .binFull)] := by
  have hclass : (decide (s.classOf origin ≠ .view) || b == origin) = decide (s.classOf origin = .view → b = origin) := by
    simp [imp_iff_not_or, Bool.beq_eq_decide_eq]
  have hkind : (decide (r.kind ≠ .hold) || !i.holds.isEmpty) = decide (r.kind = .hold → i.holds ≠ []) := by
    cases i.holds <;> simp
  rw [putBackRefusal, hclass, hkind]

theorem originAt?_picked (k : PickNo) (b : BinNo) : (ItemState.picked k b).originAt? k = some b := if_pos rfl

theorem originAt?_none {st : ItemState} (h : ∀ b, st ≠ .picked k b) : st.originAt? k = none := by
  cases horigin : st.originAt? k with
  | none => rfl
  | some b => exact absurd (picked_of_originAt? horigin) (h b)

/-! ## The evaluations at an OPEN station -/

section
variable (hk : o.station = k.val) (hr : o.tagInRange = true) (hopen : s.stationState (pickStation k) = .opened)
  (hi : s.item? o.tag = some i)
include hk hr hopen hi

theorem pick_notPresented (h : s.presentedAt? k = none) : pick o s = .refuse .notPresented := by
  rw [pick, handlingAt_opened hr hk hopen]
  simp only [hi, h]

theorem pick_presented (h : s.presentedAt? k = some (b, r)) : pick o s = checkedReply (pickRefusal i b r)
    (.answer .ok { a0 := word b.val, a1 := bytePair (r.itemCount - 1) (r.pickedOut + 1), a2 := word i.holds.length }
      (s.pickItem o.tag i k b)) := by
  rw [pick, handlingAt_opened hr hk hopen]
  simp only [hi, h]
  rfl

theorem putBack_wrongState (h : ∀ b, i.state ≠ .picked k b) : putBack o s = .refuse .wrongState := by
  rw [putBack, handlingAt_opened hr hk hopen]
  simp only [hi, originAt?_none h]

variable (hst : i.state = .picked k origin)
include hst

theorem putBack_notPresented (h : s.presentedAt? k = none) : putBack o s = .refuse .notPresented := by
  rw [putBack, handlingAt_opened hr hk hopen]
  simp only [hi, hst, originAt?_picked, h]

theorem putBack_presented (h : s.presentedAt? k = some (b, r)) : putBack o s = checkedReply (putBackRefusal s i origin b r)
    (.answer .ok { a0 := word b.val, a1 := word (r.itemCount + 1), a2 := word (stateInto b r).code }
      (s.putItemBack o.tag i origin b r)) := by
  rw [putBack, handlingAt_opened hr hk hopen]
  simp only [hi, hst, originAt?_picked, h]
  rfl

end

/-- Settles O36: what stands at the station is checked first, then each request's own checks. -/
theorem pickAndPutBackMoveTheItem : Obligations.PickAndPutBackMoveTheItem := by
  intro s k i hw hk hlo hhi hopen hi
  have hr : s.operands.tagInRange = true := tagInRange_iff.2 ⟨hlo, hhi⟩
  refine ⟨fun h => ⟨?_, fun b hst => ?_⟩, fun hst => ?_, fun b r h => ⟨?_, fun origin hst => ?_⟩⟩
  · exact next_refused hw (pick_notPresented (s := s.storeRequest 0x40) hk hr hopen hi h)
  · exact next_refused hw (putBack_notPresented (s := s.storeRequest 0x41) hk hr hopen hi hst h)
  · exact next_refused hw (putBack_wrongState (s := s.storeRequest 0x41) hk hr hopen hi hst)
  · exact judged_of_checkedReply rfl hw (pick_presented (s := s.storeRequest 0x40) hk hr hopen hi h) pickRefusal_eq
  · exact judged_of_checkedReply rfl hw (putBack_presented (s := s.storeRequest 0x41) hk hr hopen hi hst h)
      putBackRefusal_eq

end Sys2Proof.Machine
end

section
/-! RENEW (R120). -/
namespace Sys2Proof.Machine

variable {s : State} {o : Operands} {k : PickNo} {i : Item} {n : PatronNo} {due renewals : Nat} {p : Patron}

/-! ## A loan moved to a new due day (R116) -/

/-- An item moved within its borrower's loan list stands there by its new due day. -/
theorem patron?_moveLoan (t : Tag) (h : s.patron? n = some p) : (s.moveLoan n t due).patron? n =
    some { p with loans := loanInsert s.dueOf due t (p.loans.erase t) } := by
  rw [State.moveLoan, patron?_changePatron, if_pos rfl, h]
  rfl

theorem loanIndex_of_some (t : Tag) (h : s.patron? n = some p) : s.loanIndex n t = p.loans.idxOf t := by
  rw [State.loanIndex, h]

theorem loanCount_of_some (h : s.patron? n = some p) : s.loanCount n = p.loans.length := by
  rw [State.loanCount, h]

theorem patron?_renewItem (t : Tag) (i : Item) (h : s.patron? n = some p) :
    let u := s.renewItem t i n due renewals
    u.patron? n = some { p with loans := loanInsert u.dueOf due t (p.loans.erase t) } :=
  patron?_moveLoan t h

/-! ## The evaluation at an OPEN station -/

section
variable (hk : o.station = k.val) (hr : o.tagInRange = true) (hopen : s.stationState (pickStation k) = .opened)
  (hi : s.item? o.tag = some i)
include hk hr hopen hi

theorem renew_wrongState (h : ∀ n due renewals, i.state ≠ .onLoan n due renewals) : renew o s = .refuse .wrongState := by
  rw [renew, handlingAt_opened hr hk hopen]
  simp only [hi]

theorem renew_onLoan (hst : i.state = .onLoan n due renewals) (hp : s.patron? n = some p) :
    let u := s.renewItem o.tag i n (s.tab.day + o.cell 2) renewals
    renew o s = checkedReply (renewRefusal s i due renewals p (o.cell 2)) (.answer .ok
      { a0 := word (s.tab.day + o.cell 2), a1 := word (renewals + 1)
        a2 := word ((loanInsert u.dueOf (s.tab.day + o.cell 2) o.tag (p.loans.erase o.tag)).idxOf o.tag) } u) := by
  intro u
  rw [renew, handlingAt_opened hr hk hopen]
  simp only [hi, hst, renewLoan, hp]
  rw [← loanIndex_of_some o.tag (patron?_renewItem o.tag i hp)]
  rfl

end

/-- Settles O38: the checks of R120 after the item's state, and the loan list that the move leaves. -/
theorem renewMovesTheLoan : Obligations.RenewMovesTheLoan := by
  intro s k i hw hk hlo hhi hopen hi
  have hr : s.operands.tagInRange = true := tagInRange_iff.2 ⟨hlo, hhi⟩
  refine ⟨fun h => ?_, fun n due renewals p hst hp => ⟨?_, patron?_renewItem s.operands.tag i hp⟩⟩
  · exact next_refused hw (renew_wrongState (s := s.storeRequest 0x43) hk hr hopen hi h)
  · exact judged_of_checkedReply rfl hw (renew_onLoan (s := s.storeRequest 0x43) hk hr hopen hi hst hp) rfl

end Sys2Proof.Machine
end

section
/-! CHARGE (R117 to R119). -/
namespace Sys2Proof.Machine

variable {s : State} {o : Operands} {k : PickNo} {i : Item} {n : PatronNo} {due days : Nat} {p : Patron} {origin : BinNo}

/-! ## Its checks in the statement's words -/

theorem not_overdue_eq (p : Patron) : (!s.overdue p) =
    match p.loans.head? with | some t => decide (s.tab.day ≤ s.dueOf t) | none => true := by
  unfold State.overdue State.headDue?
  cases p.loans with
  | nil => rfl
  | cons t _ => simp [← decide_not]

theorem classPermits_eq (origin : BinNo) (days : Nat) (k : PickNo) : s.classPermits origin days k =
    match s.classOf origin with
    | .openClass => true
    | .inBuilding => decide (days = 0) && s.tab.supervised[pickStation k]
    | _ => false := by
  unfold State.classPermits
  cases s.classOf origin <;> rfl

theorem heldForOther_eq (l : List PatronNo) (n : PatronNo) :
    (l.isEmpty || l.head? == some n) = decide (l = [] ∨ l.head? = some n) := by
  cases l <;> simp [Bool.beq_eq_decide_eq]

/-! ## What an accepted CHARGE leaves (R119) -/

theorem holdsAfterCharge_eq (n : PatronNo) (l : List PatronNo) :
    holdsAfterCharge n l = if l.head? = some n then l.tail else l := by
  cases l <;> simp [holdsAfterCharge]

/-- The borrower's loan list takes the item by its due day (R116). -/
theorem patron?_addLoan (t : Tag) (h : s.patron? n = some p) :
    (s.addLoan n t due).patron? n = some { p with loans := loanInsert s.dueOf due t p.loans } := by
  rw [State.addLoan, patron?_changePatron, if_pos rfl, h]
  rfl

theorem patron?_holdCountDown (h : s.patron? n = some p) :
    (s.holdCountDown n).patron? n = some { p with holdCount := p.holdCount - 1 } := by
  rw [State.holdCountDown, patron?_changePatron, if_pos rfl, h]
  rfl

section
variable (s) (t : Tag) (i : Item) (origin : BinNo) (n : PatronNo) (due : Nat)

/-- The item ON_LOAN to the patron, with what is left of its hold list. -/
def Item.lent : Item := { state := .onLoan n due 0, holds := holdsAfterCharge n i.holds }

/-- Beside the patron records, a CHARGE writes the item and its origin's picked-out count. -/
theorem chargeItem_frame : ∃ ps, s.chargeItem t i origin n due =
    { (s.putItem t (i.lent n due)).pickedOutDown origin with tab.patrons := ps } := by
  unfold State.chargeItem
  split
  · exact ⟨_, rfl⟩
  · exact ⟨_, rfl⟩

theorem item?_chargeItem (x : Tag) :
    (s.chargeItem t i origin n due).item? x = if x = t then some (i.lent n due) else s.item? x := by
  obtain ⟨ps, hps⟩ := chargeItem_frame s t i origin n due
  rw [hps]
  exact item?_putItem s t x (i.lent n due)

theorem binRec?_chargeItem (b : BinNo) : (s.chargeItem t i origin n due).binRec? b =
    (s.binRec? b).map fun r => if b = origin then { r with pickedOut := r.pickedOut - 1 } else r := by
  obtain ⟨ps, hps⟩ := chargeItem_frame s t i origin n due
  rw [hps]
  exact binRec?_changeBin_map origin b _

theorem segments_chargeItem : (s.chargeItem t i origin n due).tab.segments = s.tab.segments := by
  obtain ⟨ps, hps⟩ := chargeItem_frame s t i origin n due
  rw [hps]
  rfl

theorem dueOf_chargeItem : (s.chargeItem t i origin n due).dueOf = (s.putItem t (i.lent n due)).dueOf := by
  obtain ⟨ps, hps⟩ := chargeItem_frame s t i origin n due
  rw [hps]
  rfl

theorem patron?_chargeItem_other {m : PatronNo} (h : m ≠ n) :
    (s.chargeItem t i origin n due).patron? m = s.patron? m := by
  have hlent : ((s.putItem t (i.lent n due)).addLoan n t due).patron? m = s.patron? m := by
    rw [State.addLoan, patron?_changePatron, if_neg h]
    rfl
  unfold State.chargeItem
  split
  · rw [State.holdCountDown, patron?_changePatron, if_neg h]
    exact hlent
  · exact hlent

theorem patron?_chargeItem (h : s.patron? n = some p) :
    (s.chargeItem t i origin n due).patron? n = some { p with
      loans := loanInsert (s.chargeItem t i origin n due).dueOf due t p.loans
      holdCount := p.holdCount - (if i.holds.head? = some n then 1 else 0) } := by
  have hlent := patron?_addLoan (s := s.putItem t (i.lent n due)) (due := due) t h
  rw [dueOf_chargeItem]
  by_cases hhead : i.holds.head? = some n
  · rw [State.chargeItem, if_pos hhead, if_pos hhead]
    exact patron?_holdCountDown hlent
  · rw [State.chargeItem, if_neg hhead, if_neg hhead]
    exact hlent

theorem chargeItem_storeRequest (code : Word) :
    (s.storeRequest code).chargeItem t i origin n due = (s.chargeItem t i origin n due).storeRequest code := by
  unfold State.chargeItem
  split
  · rfl
  · rfl

end

/-! ## The evaluation at an OPEN station -/

theorem needsBin_passed (h : (s.presentedAt? k).isSome ∨ Config.chargeNeedsBin = false) :
    ((s.presentedAt? k).isNone && Config.chargeNeedsBin) = false := by
  rcases h with hsome | hfree
  · rw [Option.isNone_eq_false_iff.2 hsome, Bool.false_and]
  · rw [hfree, Bool.and_false]

section
variable (hk : o.station = k.val) (hr : o.tagAndPatronInRange = true)
  (hopen : s.stationState (pickStation k) = .opened) (hi : s.item? o.tag = some i)
include hk hr hopen hi

theorem charge_wrongState (h : ∀ b, i.state ≠ .picked k b) : charge o s = .refuse .wrongState := by
  rw [charge, chargeUnder, handlingAt_opened hr hk hopen]
  simp only [hi, originAt?_none h]

variable (hst : i.state = .picked k origin)
include hst

/-- R39 and R115: a station without a presented bin, where the part asks for one. -/
theorem charge_notPresented (h : s.presentedAt? k = none) (hneeds : Config.chargeNeedsBin = true) :
    charge o s = .refuse .notPresented := by
  rw [charge, chargeUnder, handlingAt_opened hr hk hopen]
  simp only [hi, hst, originAt?_picked, h, hneeds, Option.isNone_none, Bool.and_self, if_true]

variable (hbin : (s.presentedAt? k).isSome ∨ Config.chargeNeedsBin = false)
include hbin

theorem charge_noPatron (h : s.patron? o.secondPatron = none) : charge o s = .refuse .noRecord := by
  rw [charge, chargeUnder, handlingAt_opened hr hk hopen]
  simp only [hi, hst, originAt?_picked, needsBin_passed hbin, Bool.false_eq_true, if_false, h]

theorem charge_checked (hp : s.patron? o.secondPatron = some p) :
    let u := s.chargeItem o.tag i origin o.secondPatron (s.tab.day + o.cell 4)
    charge o s = checkedReply (chargeRefusal s i origin o.secondPatron p (o.cell 4) k) (.answer .ok
      { a0 := word (s.tab.day + o.cell 4), a1 := word (p.loans.length + 1)
        a2 := word ((loanInsert u.dueOf (s.tab.day + o.cell 4) o.tag p.loans).idxOf o.tag)
        a3 := word (holdsAfterCharge o.secondPatron i.holds).length } u) := by
  intro u
  have hborrower := patron?_chargeItem s o.tag i origin o.secondPatron (s.tab.day + o.cell 4) hp
  rw [charge, chargeUnder, handlingAt_opened hr hk hopen]
  simp only [hi, hst, originAt?_picked, needsBin_passed hbin, Bool.false_eq_true, if_false, hp, State.chargeAnswer,
    loanCount_of_some hborrower, loanIndex_of_some o.tag hborrower, length_loanInsert]
  rfl

end

/-- Settles O37: what is refused before the checks on the patron, those checks, and the records that the loan leaves. -/
theorem chargeLendsToThePatron : Obligations.ChargeLendsToThePatron := by
  intro s k i hw hk hlo hhi hplo hphi hopen hi
  have hr : s.operands.tagAndPatronInRange = true := tagAndPatronInRange_iff.2 ⟨⟨hlo, hhi⟩, hplo, hphi⟩
  refine ⟨fun hst => ?_, fun origin hst => ⟨fun hbin hneeds => ?_, fun hbin => ⟨fun hp => ?_, fun p hp => ?_⟩⟩⟩
  · exact next_refused hw (charge_wrongState (s := s.storeRequest 0x42) hk hr hopen hi hst)
  · exact next_refused hw (charge_notPresented (s := s.storeRequest 0x42) hk hr hopen hi hst hbin hneeds)
  · exact next_refused hw (charge_noPatron (s := s.storeRequest 0x42) hk hr hopen hi hst hbin hp)
  · intro n days due row checks
    have hchecks : chargeRefusal s i origin n p days k = firstFailing checks := by
      rw [chargeRefusal, not_overdue_eq, classPermits_eq, heldForOther_eq]
      rfl
    have hjudged := judged_of_checkedReply (i := .charge) rfl hw
      (charge_checked (s := s.storeRequest 0x42) hk hr hopen hi hst hbin hp) hchecks
    refine ⟨hjudged.2, fun hn => ?_⟩
    intro holds u
    have hholds : holdsAfterCharge n i.holds = holds := holdsAfterCharge_eq n i.holds
    refine ⟨?_, ?_, patron?_chargeItem s s.operands.tag i origin n due hp, binRec?_chargeItem s s.operands.tag i origin n due,
      fun t ht => (item?_chargeItem s s.operands.tag i origin n due t).trans (if_neg ht),
      fun m => patron?_chargeItem_other s s.operands.tag i origin n due,
      segments_chargeItem s s.operands.tag i origin n due⟩
    · rw [hjudged.1 hn, chargeItem_storeRequest, hholds]
      rfl
    · rw [← hholds]
      exact (item?_chargeItem s s.operands.tag i origin n due s.operands.tag).trans (if_pos rfl)

end Sys2Proof.Machine
end

section
/-! DECLARE LOST (R121). -/
namespace Sys2Proof.Machine

variable {s : State} {o : Operands} {k : PickNo} {i : Item} {b : BinNo} {r : BinRec}

/-! ## The item lost -/

/-- Hold lists are emptied the same way before and after the request's code is stored. -/
theorem dropHolds_storeRequest (code : Word) : ∀ (ns : List PatronNo) (s : State),
    State.dropHolds ns (s.storeRequest code) = (State.dropHolds ns s).storeRequest code
  | [], _ => rfl
  | n :: ns, s => dropHolds_storeRequest code ns (s.holdCountDown n)

theorem loseItem_storeRequest (code : Word) (t : Tag) (i : Item) (s : State) :
    (s.storeRequest code).loseItem t i = (s.loseItem t i).storeRequest code := by
  rw [State.loseItem, dropHolds_storeRequest]
  rfl

/-- An item is lost, and the request ends. -/
theorem endRequest_loseItem (code : Word) (t : Tag) (i : Item) (c : Code) (a : Answer) (s : State) :
    ((s.storeRequest code).loseItem t i).endRequest c a = (s.loseItem t i).requestDone code c a := by
  rw [loseItem_storeRequest]
  rfl

/-! ## The evaluation at a station that takes record requests -/

theorem binInDoubt_iff (h : s.binRec? b = some r) :
    s.binInDoubt b = true ↔ r.place = .missing ∨ r.place = .unverified := by
  simp [State.binInDoubt, h]

section
variable (hk : o.station = k.val) (hr : o.tagInRange = true)
  (hopen : s.stationState (pickStation k) = .opened ∨ s.stationState (pickStation k) = .fireHeld true)
  (hi : s.item? o.tag = some i)
include hk hr hopen hi

theorem declareLost_onLoan {n : PatronNo} {due renewals : Nat} (hst : i.state = .onLoan n due renewals) :
    declareLost o s = .answer .ok { a0 := 0, a1 := word (n / 65536), a2 := word n, a3 := word i.holds.length }
      ((s.removeLoan n o.tag).loseItem o.tag i) := by
  rw [declareLost, recordAt_open hr hk hopen]
  simp only [hi, hst]
  rfl

theorem declareLost_inDoubt (hst : i.state = .shelved b) (h : s.binInDoubt b = true) :
    declareLost o s = .answer .ok { a0 := 1, a1 := word b.val, a3 := word i.holds.length }
      ((s.countOut b).loseItem o.tag i) := by
  rw [declareLost, recordAt_open hr hk hopen]
  simp only [hi, hst, h, if_true]

theorem declareLost_notInDoubt (hst : i.state = .shelved b) (h : ¬ s.binInDoubt b = true) :
    declareLost o s = .refuse .wrongState := by
  rw [declareLost, recordAt_open hr hk hopen]
  simp only [hi, hst, if_neg h]

theorem declareLost_wrongState
    (hst : (∃ b, i.state = .held b) ∨ (∃ j b, i.state = .picked j b) ∨ i.state = .dropped ∨ i.state = .lost) :
    declareLost o s = .refuse .wrongState := by
  rw [declareLost, recordAt_open hr hk hopen]
  rcases hst with ⟨b, hst⟩ | ⟨j, b, hst⟩ | hst | hst
  all_goals simp only [hi, hst]

end

/-- Settles O39: the reply by the item's state, and for a SHELVED one by the place of its bin. -/
theorem declareLostEndsTheItem : Obligations.DeclareLostEndsTheItem := by
  intro s k i hw hk hlo hhi hopen hi lose
  have hr : s.operands.tagInRange = true := tagInRange_iff.2 ⟨hlo, hhi⟩
  refine ⟨fun n due renewals hst => ?_, fun b r hst hb => ⟨fun hplace => ?_, fun hmissing hunverified => ?_⟩, fun hst => ?_⟩
  · exact (next_answered hw (declareLost_onLoan (s := s.storeRequest 0x44) hk hr hopen hi hst)).trans
      (congrArg _ (endRequest_loseItem 0x44 s.operands.tag i .ok _ (s.removeLoan n s.operands.tag)))
  · exact (next_answered hw (declareLost_inDoubt (s := s.storeRequest 0x44) hk hr hopen hi hst
      ((binInDoubt_iff hb).2 hplace))).trans
      (congrArg _ (endRequest_loseItem 0x44 s.operands.tag i .ok _ (s.countOut b)))
  · exact next_refused hw (declareLost_notInDoubt (s := s.storeRequest 0x44) hk hr hopen hi hst fun h =>
      ((binInDoubt_iff hb).1 h).elim hmissing hunverified)
  · exact next_refused hw (declareLost_wrongState (s := s.storeRequest 0x44) hk hr hopen hi hst)

end Sys2Proof.Machine
end

section
/-! PLACE HOLD and CANCEL HOLD (R122 to R125). -/
namespace Sys2Proof.Machine

variable {s : State} {o : Operands} {k : PickNo} {i : Item} {n m : PatronNo} {p : Patron} {due renewals : Nat}

/-! ## The checks of R123 in the statement's words -/

theorem placeHoldRefusal_eq {elsewhere : Bool} (h : (!i.state.lentTo n) = elsewhere) : placeHoldRefusal i n p = firstFailing
    [(decide (i.state ≠ .lost), .wrongState), (!i.holds.contains n, .duplicate),
     (decide (i.holds.length < 4 ∧ p.holdCount < 8), .holdLimit), (elsewhere, .wrongState)] := by
  rw [← h, Bool.decide_and]
  rfl

/-! ## The item's state and the recall (R122, R124) -/

theorem heldState_not_onLoan {st : ItemState} (h : ∀ m due renewals, st ≠ .onLoan m due renewals) (holds : List PatronNo) :
    s.heldState holds st = s.stateByHolds holds st := by
  cases st with
  | onLoan m due renewals => exact absurd rfl (h m due renewals)
  | _ => rfl

theorem recall_not_onLoan {st : ItemState} (h : ∀ m due renewals, st ≠ .onLoan m due renewals) (t : Tag) :
    s.recall t st = s := by
  cases st with
  | onLoan m due renewals => exact absurd rfl (h m due renewals)
  | _ => rfl

/-- Whether a bin is a bin of kind HOLD. -/
def State.inHoldBin (s : State) (b : BinNo) : Bool :=
  match s.binRec? b with
  | some r => decide (r.kind = .hold)
  | none => false

theorem stateByHolds_shelved (holds : List PatronNo) (b : BinNo) : s.stateByHolds holds (.shelved b) =
    if s.inHoldBin b = true ∧ holds ≠ [] then .held b else .shelved b := by
  cases h : s.binRec? b with
  | none => simp only [State.stateByHolds, State.inHoldBin, h, Bool.false_eq_true, false_and, if_false]
  | some r => simp only [State.stateByHolds, State.inHoldBin, h, decide_eq_true_eq]

theorem stateByHolds_held (holds : List PatronNo) (b : BinNo) :
    s.stateByHolds holds (.held b) = if holds = [] then .shelved b else .held b := rfl

theorem due?_stateByHolds {st : ItemState} (h : ∀ m due renewals, st ≠ .onLoan m due renewals) (holds : List PatronNo) :
    (s.stateByHolds holds st).due? = none := by
  cases st with
  | onLoan m due renewals => exact absurd rfl (h m due renewals)
  | shelved b =>
    rw [stateByHolds_shelved, apply_ite ItemState.due?]
    exact ite_self none
  | held b =>
    rw [stateByHolds_held, apply_ite ItemState.due?]
    exact ite_self none
  | _ => rfl

section
variable (t : Tag) (i : Item) (n : PatronNo)

theorem addHold_not_onLoan (h : ∀ m due renewals, i.state ≠ .onLoan m due renewals) : s.addHold t i n =
    (s.putItem t { state := s.stateByHolds (i.holds ++ [n]) i.state, holds := i.holds ++ [n] }).holdCountUp n := by
  rw [State.addHold, heldState_not_onLoan h]
  exact recall_not_onLoan h t

/-- A loan is recalled: its due day falls to the least of the three, and the item moves where it has fallen. -/
theorem addHold_onLoan (hst : i.state = .onLoan m due renewals) : s.addHold t i n =
    let newDue := min due (min (s.tab.day + 7) 65535)
    let u := (s.putItem t { state := .onLoan m newDue renewals, holds := i.holds ++ [n] }).holdCountUp n
    if newDue < due then u.moveLoan m t newDue else u := by
  rw [State.addHold, hst]
  rfl

/-- Placing a hold neither reads nor writes the window. -/
theorem addHold_storeRequest (code : Word) : (s.storeRequest code).addHold t i n = (s.addHold t i n).storeRequest code := by
  by_cases h : ∀ m due renewals, i.state ≠ .onLoan m due renewals
  · rw [addHold_not_onLoan t i n h, addHold_not_onLoan t i n h]
    rfl
  · push Not at h
    obtain ⟨m, due, renewals, hst⟩ := h
    rw [addHold_onLoan t i n hst, addHold_onLoan t i n hst]
    dsimp only
    rw [apply_ite (State.storeRequest code)]
    rfl

end

/-! ## The evaluations at a station that takes record requests -/

section
variable (hk : o.station = k.val) (hr : o.tagAndPatronInRange = true)
  (hopen : s.stationState (pickStation k) = .opened ∨ s.stationState (pickStation k) = .fireHeld true)
  (hi : s.item? o.tag = some i)
include hk hr hopen hi

theorem placeHold_noPatron (h : s.patron? o.secondPatron = none) : placeHold o s = .refuse .noRecord := by
  rw [placeHold, recordAt_open hr hk hopen]
  simp only [hi, h]

theorem placeHold_checked (hp : s.patron? o.secondPatron = some p) :
    let st := s.heldState (i.holds ++ [o.secondPatron]) i.state
    placeHold o s = checkedReply (placeHoldRefusal i o.secondPatron p) (.answer .ok
      { a0 := word i.holds.length, a1 := word st.code, a2 := wordOrNone st.due? } (s.addHold o.tag i o.secondPatron)) := by
  rw [placeHold, recordAt_open hr hk hopen]
  simp only [hi, hp]
  rfl

theorem cancelHold_noRecord (h : i.holds.contains o.secondPatron = false) : cancelHold o s = .refuse .noRecord := by
  rw [cancelHold, recordAt_open hr hk hopen]
  simp only [hi, h, Bool.false_eq_true, if_false]

theorem cancelHold_held (h : i.holds.contains o.secondPatron = true) :
    let holds := i.holds.erase o.secondPatron
    cancelHold o s = .answer .ok
      { a0 := word holds.length, a1 := word (holds.head?.getD 0 / 65536), a2 := word (holds.head?.getD 0)
        a3 := word (s.stateByHolds holds i.state).code } (s.removeHold o.tag i o.secondPatron) := by
  rw [cancelHold, recordAt_open hr hk hopen]
  simp only [hi, h, if_true]
  rfl

end

/-- Settles O40: the state that follows the hold list, the checks of R123, the recall, and the hold cancelled. -/
theorem holdsArePlacedAndCancelled : Obligations.HoldsArePlacedAndCancelled := by
  intro s k i hw hk hlo hhi hplo hphi hopen hi n inHoldBin follow
  have hr : s.operands.tagAndPatronInRange = true := tagAndPatronInRange_iff.2 ⟨⟨hlo, hhi⟩, hplo, hphi⟩
  have hfollow : ∀ holds, s.stateByHolds holds i.state = follow holds := by
    intro holds
    dsimp only [follow]
    cases i.state with
    | shelved b => exact stateByHolds_shelved holds b
    | _ => rfl
  refine ⟨fun hp => ?_, fun p hp => ?place, fun h => ?_, fun h => ?cancel⟩
  · exact next_refused hw (placeHold_noPatron (s := s.storeRequest 0x45) hk hr hopen hi hp)
  case place =>
    intro checks
    have hchecks : placeHoldRefusal i n p = firstFailing checks :=
      placeHoldRefusal_eq (by cases i.state <;> simp [ItemState.lentTo, Bool.beq_eq_decide_eq])
    have hjudged := judged_of_checkedReply (i := .placeHold) rfl hw
      (placeHold_checked (s := s.storeRequest 0x45) hk hr hopen hi hp) hchecks
    refine ⟨hjudged.2, fun hn hst => ?_, fun hn m due renewals hst => ?_⟩
    · rw [hjudged.1 hn, addHold_storeRequest, addHold_not_onLoan _ _ _ hst, heldState_not_onLoan hst, due?_stateByHolds hst,
        ← hfollow]
      rfl
    · rw [hjudged.1 hn, addHold_storeRequest, addHold_onLoan _ _ _ hst, hst]
      rfl
  · exact next_refused hw (cancelHold_noRecord (s := s.storeRequest 0x46) hk hr hopen hi h)
  case cancel =>
    intro holds head
    have hhead : holds.head?.getD 0 = head := by
      dsimp only [head]
      cases holds <;> rfl
    rw [← hhead, ← hfollow]
    exact next_answered hw (cancelHold_held (s := s.storeRequest 0x46) hk hr hopen hi h)

end Sys2Proof.Machine
end

section
/-! What the requests at a station refuse before their own checks: a CONTEXT, a tag or a patron out of its range, the wrong kind of
station, and its state (R109, R166). -/
namespace Sys2Proof.Machine

variable {s : State} {o : Operands} {i : Instr} {code : Word} {c : Code} {inRange : Operands → Bool}
  {n : StationNo} {k : PickNo} {P : StationNo → Operands → Prop}

/-! ## Requests at the CONTEXT station (R166) -/

/-- A request that acts at the CONTEXT station. -/
def ActsAtContext (i : Instr) (code : Word) : Prop :=
  ∃ e : StationNo → Evaluation, ∀ s, exec i s = .next (s.takeRequest code (atContext e))

/-- A request that acts at the CONTEXT station and refuses with one code there whatever the state, where its operands are such. -/
def RefusesAt (i : Instr) (code : Word) (P : StationNo → Operands → Prop) (c : Code) : Prop :=
  ∃ e : StationNo → Evaluation, (∀ s, exec i s = .next (s.takeRequest code (atContext e)))
    ∧ ∀ n o s, P n o → e n o s = .refuse c

theorem ActsAtContext.exec_beyond (h : ActsAtContext i code) (hw : s.windowFree = true) (hst : 4 < s.operands.station) :
    exec i s = .next (s.requestDone code .badOperand {}) := by
  obtain ⟨e, he⟩ := h
  refine (he s).trans (next_refused hw ?_)
  simp only [atContext, Operands.station?, index?_of_le (Nat.succ_le_of_lt hst)]

theorem RefusesAt.exec (h : RefusesAt i code P c) (hw : s.windowFree = true) (hn : s.operands.station = n.val)
    (hP : P n s.operands) : exec i s = .next (s.requestDone code c {}) := by
  obtain ⟨e, he, hrefuse⟩ := h
  exact (he s).trans (next_refused hw ((atContext_station hn).trans (hrefuse n s.operands _ hP)))

theorem RefusesAt.mono {Q : StationNo → Operands → Prop} (h : RefusesAt i code P c) (hQ : ∀ n o, Q n o → P n o) :
    RefusesAt i code Q c := by
  obtain ⟨e, he, hrefuse⟩ := h
  exact ⟨e, he, fun n o s hq => hrefuse n o s (hQ n o hq)⟩

/-! ## Handling requests and record requests (R109) -/

/-- A handling request, which asks for the item's record first among its own checks. -/
def IsHandling (i : Instr) (code : Word) (inRange : Operands → Bool) : Prop :=
  ∃ e : PickNo → Evaluation, (∀ s, exec i s = .next (s.takeRequest code (handlingAt inRange e)))
    ∧ ∀ k o s, s.item? o.tag = none → e k o s = .refuse .noRecord

/-- A record request, which asks for the item's record first among its own checks. -/
def IsRecordRequest (i : Instr) (code : Word) (inRange : Operands → Bool) : Prop :=
  ∃ e : Evaluation, (∀ s, exec i s = .next (s.takeRequest code (recordAt inRange e)))
    ∧ ∀ o s, s.item? o.tag = none → e o s = .refuse .noRecord

theorem isHandling_pick : IsHandling .pick 0x40 Operands.tagInRange :=
  ⟨_, fun _ => rfl, fun _ _ _ h => by simp only [h]⟩

theorem isHandling_putBack : IsHandling .putBack 0x41 Operands.tagInRange :=
  ⟨_, fun _ => rfl, fun _ _ _ h => by simp only [h]⟩

theorem isHandling_charge : IsHandling .charge 0x42 Operands.tagAndPatronInRange :=
  ⟨_, fun _ => rfl, fun _ _ _ h => by simp only [h]⟩

theorem isHandling_renew : IsHandling .renew 0x43 Operands.tagInRange :=
  ⟨_, fun _ => rfl, fun _ _ _ h => by simp only [h]⟩

theorem isRecordRequest_declareLost : IsRecordRequest .declareLost 0x44 Operands.tagInRange :=
  ⟨_, fun _ => rfl, fun _ _ h => by simp only [h]⟩

theorem isRecordRequest_placeHold : IsRecordRequest .placeHold 0x45 Operands.tagAndPatronInRange :=
  ⟨_, fun _ => rfl, fun _ _ h => by simp only [h]⟩

theorem isRecordRequest_cancelHold : IsRecordRequest .cancelHold 0x46 Operands.tagAndPatronInRange :=
  ⟨_, fun _ => rfl, fun _ _ h => by simp only [h]⟩

section
variable (h : IsHandling i code inRange)
include h

theorem IsHandling.refusesRange : RefusesAt i code (fun _ o => ¬ inRange o = true) .badOperand := by
  obtain ⟨_, he, -⟩ := h
  exact ⟨_, he, fun _ _ _ hr => if_neg hr⟩

theorem IsHandling.refusesReturn : RefusesAt i code (fun n o => n = returnStation ∧ inRange o = true) .wrongState := by
  obtain ⟨_, he, -⟩ := h
  exact ⟨_, he, fun _ _ _ ⟨hn, hr⟩ => by subst hn; exact if_pos hr⟩

variable (hw : s.windowFree = true) (hk : s.operands.station = k.val) (hr : inRange s.operands = true)
include hw hk hr

theorem IsHandling.exec_fireHeld (hst : ∃ r, s.stationState (pickStation k) = .fireHeld r) :
    exec i s = .next (s.requestDone code .zoneLocked {}) := by
  obtain ⟨e, he, -⟩ := h
  obtain ⟨r, hst⟩ := hst
  exact (he s).trans (next_refused hw (handlingAt_fireHeld (s := s.storeRequest code) hr hk hst))

theorem IsHandling.exec_closed (hst : s.stationState (pickStation k) = .closed) :
    exec i s = .next (s.requestDone code .stationClosed {}) := by
  obtain ⟨e, he, -⟩ := h
  exact (he s).trans (next_refused hw (handlingAt_closed (s := s.storeRequest code) hr hk hst))

theorem IsHandling.exec_noRecord (hst : s.stationState (pickStation k) = .opened) (hi : s.item? s.operands.tag = none) :
    exec i s = .next (s.requestDone code .noRecord {}) := by
  obtain ⟨e, he, hnone⟩ := h
  exact (he s).trans (next_refused hw
    ((handlingAt_opened (s := s.storeRequest code) hr hk hst).trans (hnone k s.operands _ hi)))

end

section
variable (h : IsRecordRequest i code inRange)
include h

theorem IsRecordRequest.refusesRange : RefusesAt i code (fun _ o => ¬ inRange o = true) .badOperand := by
  obtain ⟨_, he, -⟩ := h
  exact ⟨_, he, fun _ _ _ hr => if_neg hr⟩

theorem IsRecordRequest.refusesReturn :
    RefusesAt i code (fun n o => n = returnStation ∧ inRange o = true) .wrongState := by
  obtain ⟨_, he, -⟩ := h
  exact ⟨_, he, fun _ _ _ ⟨hn, hr⟩ => by subst hn; exact if_pos hr⟩

variable (hw : s.windowFree = true) (hk : s.operands.station = k.val) (hr : inRange s.operands = true)
include hw hk hr

theorem IsRecordRequest.exec_closed
    (hst : s.stationState (pickStation k) = .closed ∨ s.stationState (pickStation k) = .fireHeld false) :
    exec i s = .next (s.requestDone code .stationClosed {}) := by
  obtain ⟨e, he, -⟩ := h
  exact (he s).trans (next_refused hw (recordAt_closed (s := s.storeRequest code) hr hk hst))

theorem IsRecordRequest.exec_noRecord
    (hst : s.stationState (pickStation k) = .opened ∨ s.stationState (pickStation k) = .fireHeld true)
    (hi : s.item? s.operands.tag = none) : exec i s = .next (s.requestDone code .noRecord {}) := by
  obtain ⟨e, he, hnone⟩ := h
  exact (he s).trans (next_refused hw
    ((recordAt_open (s := s.storeRequest code) hr hk hst).trans (hnone s.operands _ hi)))

end

/-! ## The requests with their own station checks -/

theorem enrolItem_refusesTag : RefusesAt .enrolItem 0x10 (fun _ o => ¬ o.tagInRange = true) .badOperand :=
  ⟨_, fun _ => rfl, fun n o s h => by
    have hc : enrolItemRefusal o.tag n s = some .badOperand := firstFailing_fail h
    simp only [hc]⟩

theorem enrolItem_refusesReturn :
    RefusesAt .enrolItem 0x10 (fun n o => n = returnStation ∧ o.tagInRange = true) .wrongState :=
  ⟨_, fun _ => rfl, fun n o s ⟨hn, h⟩ => by
    have hc : enrolItemRefusal o.tag n s = some .wrongState :=
      (firstFailing_pass h).trans (firstFailing_fail (by simp [hn]))
    simp only [hc]⟩

theorem returnRefusal_badTag (s : State) (n : StationNo) (h : ¬ o.tagInRange = true) :
    returnRefusal o.tag n s = some .badOperand := firstFailing_fail h

theorem returnRefusal_pick (s : State) (hn : n ≠ returnStation) (h : o.tagInRange = true) :
    returnRefusal o.tag n s = some .wrongState :=
  (firstFailing_pass h).trans (firstFailing_fail (by simpa using hn))

theorem returnItem_refusesTag : RefusesAt .returnItem 0x50 (fun _ o => ¬ o.tagInRange = true) .badOperand :=
  ⟨_, fun _ => rfl, fun n _ s h => by simp only [returnRefusal_badTag s n h]⟩

theorem placeDropped_refusesTag : RefusesAt .placeDropped 0x51 (fun _ o => ¬ o.tagInRange = true) .badOperand :=
  ⟨_, fun _ => rfl, fun n _ s h => by simp only [returnRefusal_badTag s n h]⟩

theorem returnItem_refusesPick :
    RefusesAt .returnItem 0x50 (fun n o => n ≠ returnStation ∧ o.tagInRange = true) .wrongState :=
  ⟨_, fun _ => rfl, fun _ _ s ⟨hn, h⟩ => by simp only [returnRefusal_pick s hn h]⟩

theorem placeDropped_refusesPick :
    RefusesAt .placeDropped 0x51 (fun n o => n ≠ returnStation ∧ o.tagInRange = true) .wrongState :=
  ⟨_, fun _ => rfl, fun _ _ s ⟨hn, h⟩ => by simp only [returnRefusal_pick s hn h]⟩

theorem closePosition_refusesPick :
    RefusesAt .closePosition 0x52 (fun n o => n ≠ returnStation ∧ o.cell 0 ≤ 1) .wrongState :=
  ⟨_, fun _ => rfl, fun n o s ⟨hn, h⟩ => by
    obtain ⟨p, hp⟩ : ∃ p, Position.ofCode (o.cell 0) = some p := by
      obtain h0 | h1 : o.cell 0 = 0 ∨ o.cell 0 = 1 := by omega
      · exact ⟨_, by rw [h0]; rfl⟩
      · exact ⟨_, by rw [h1]; rfl⟩
    simp only [hp, if_pos hn]⟩

theorem dismiss_refusesReturn :
    RefusesAt .dismiss 0x33 (fun n o => n = returnStation ∧ o.cell 0 ≤ 3) .wrongState :=
  ⟨_, fun _ => rfl, fun n o s ⟨hn, h⟩ => by
    subst hn
    simp only [priority?_of_eq (pr := ⟨o.cell 0, Nat.lt_succ_of_le h⟩) rfl]
    rfl⟩

theorem fetch_return {b : BinNo} {r : BinRec} (hst : o.station = 4) (hbin : s.enrolledOperand o = .ok (b, r))
    (h : o.cell 2 ≤ 3) : fetch o s = .refuse .wrongState := by
  refine (atContext_station (n := returnStation) hst).trans ?_
  simp only [hbin, priority?_of_eq (pr := ⟨o.cell 2, Nat.lt_succ_of_le h⟩) rfl]
  rfl

theorem reclaimPlace_return {a : Aisle} {b : BinNo} {r : BinRec} (hst : o.station = 4) (hkind : o.cell 0 = 0)
    (hnumber : o.cell 1 = a.val) (hpr : o.cell 2 ≤ 3) (hbin : s.outPlace a = some b) (hrec : s.binRec? b = some r)
    (hholder : r.holder = none) (hzone : s.zoneState 3 = .normal) : reclaimPlace o s = .refuse .wrongState := by
  have hplace : o.reclaimed? = some (.portOut a) := reclaimed?_eq_some.2 (.inl ⟨a, hnumber, .inl ⟨hkind, rfl⟩⟩)
  have hpass : reclaimRefusal s b = none := by simp [reclaimRefusal_eq hrec, hholder, hzone]
  rw [reclaimPlace_passed (pr := ⟨o.cell 2, Nat.lt_succ_of_le hpr⟩) (reclaimContextBad_of_station hst.le) hplace rfl hbin
    hpass]
  have hstation : o.station? = some returnStation := index?_of_eq hst
  have hpick : o.pick? = none := index?_of_le hst.ge
  simp only [reclaimAt, reclaimOut, hstation, hpick]

/-! ## The groups of requests -/

theorem actsAtContext_of_mem (h : (i, code) ∈
      ([(.enrolItem, 0x10), (.fetch, 0x20), (.openStation, 0x30), (.closeStation, 0x31), (.setStation, 0x32), (.dismiss, 0x33),
        (.pick, 0x40), (.putBack, 0x41), (.charge, 0x42), (.renew, 0x43), (.declareLost, 0x44), (.placeHold, 0x45),
        (.cancelHold, 0x46), (.returnItem, 0x50), (.placeDropped, 0x51), (.closePosition, 0x52)] : List (Instr × Word))) :
    ActsAtContext i code := by
  simp only [List.mem_cons, Prod.mk.injEq, List.not_mem_nil, or_false] at h
  rcases h with ⟨rfl, rfl⟩ | ⟨rfl, rfl⟩ | ⟨rfl, rfl⟩ | ⟨rfl, rfl⟩ | ⟨rfl, rfl⟩ | ⟨rfl, rfl⟩ | ⟨rfl, rfl⟩ | ⟨rfl, rfl⟩
    | ⟨rfl, rfl⟩ | ⟨rfl, rfl⟩ | ⟨rfl, rfl⟩ | ⟨rfl, rfl⟩ | ⟨rfl, rfl⟩ | ⟨rfl, rfl⟩ | ⟨rfl, rfl⟩ | ⟨rfl, rfl⟩
  all_goals exact ⟨_, fun _ => rfl⟩

/-- A tag out of its range is refused by each request that carries one. -/
theorem refusesTag_of_mem (h : (i, code) ∈
      ([(.enrolItem, 0x10), (.pick, 0x40), (.putBack, 0x41), (.charge, 0x42), (.renew, 0x43), (.declareLost, 0x44),
        (.placeHold, 0x45), (.cancelHold, 0x46), (.returnItem, 0x50), (.placeDropped, 0x51)] : List (Instr × Word))) :
    RefusesAt i code (fun _ o => ¬ o.tagInRange = true) .badOperand := by
  simp only [List.mem_cons, Prod.mk.injEq, List.not_mem_nil, or_false] at h
  rcases h with ⟨rfl, rfl⟩ | ⟨rfl, rfl⟩ | ⟨rfl, rfl⟩ | ⟨rfl, rfl⟩ | ⟨rfl, rfl⟩ | ⟨rfl, rfl⟩ | ⟨rfl, rfl⟩ | ⟨rfl, rfl⟩
    | ⟨rfl, rfl⟩ | ⟨rfl, rfl⟩
  · exact enrolItem_refusesTag
  · exact isHandling_pick.refusesRange
  · exact isHandling_putBack.refusesRange
  · exact isHandling_charge.refusesRange.mono fun _ _ => mt tagInRange_of_both
  · exact isHandling_renew.refusesRange
  · exact isRecordRequest_declareLost.refusesRange
  · exact isRecordRequest_placeHold.refusesRange.mono fun _ _ => mt tagInRange_of_both
  · exact isRecordRequest_cancelHold.refusesRange.mono fun _ _ => mt tagInRange_of_both
  · exact returnItem_refusesTag
  · exact placeDropped_refusesTag

theorem isHandling_of_mem
    (h : (i, code) ∈ ([(.pick, 0x40), (.putBack, 0x41), (.renew, 0x43)] : List (Instr × Word))) :
    IsHandling i code Operands.tagInRange := by
  simp only [List.mem_cons, Prod.mk.injEq, List.not_mem_nil, or_false] at h
  rcases h with ⟨rfl, rfl⟩ | ⟨rfl, rfl⟩ | ⟨rfl, rfl⟩
  · exact isHandling_pick
  · exact isHandling_putBack
  · exact isHandling_renew

theorem isRecordRequest_of_mem (h : (i, code) ∈ ([(.placeHold, 0x45), (.cancelHold, 0x46)] : List (Instr × Word))) :
    IsRecordRequest i code Operands.tagAndPatronInRange := by
  simp only [List.mem_cons, Prod.mk.injEq, List.not_mem_nil, or_false] at h
  rcases h with ⟨rfl, rfl⟩ | ⟨rfl, rfl⟩
  · exact isRecordRequest_placeHold
  · exact isRecordRequest_cancelHold

/-- The requests that carry a tag and no patron ask for a pick station. -/
theorem refusesReturn_of_mem_tag (h : (i, code) ∈
      ([(.enrolItem, 0x10), (.pick, 0x40), (.putBack, 0x41), (.renew, 0x43), (.declareLost, 0x44)] : List (Instr × Word))) :
    RefusesAt i code (fun n o => n = returnStation ∧ o.tagInRange = true) .wrongState := by
  simp only [List.mem_cons, Prod.mk.injEq, List.not_mem_nil, or_false] at h
  rcases h with ⟨rfl, rfl⟩ | ⟨rfl, rfl⟩ | ⟨rfl, rfl⟩ | ⟨rfl, rfl⟩ | ⟨rfl, rfl⟩
  · exact enrolItem_refusesReturn
  · exact isHandling_pick.refusesReturn
  · exact isHandling_putBack.refusesReturn
  · exact isHandling_renew.refusesReturn
  · exact isRecordRequest_declareLost.refusesReturn

/-- The requests that carry a patron with the tag refuse either out of its range, and ask for a pick station. -/
theorem refuses_of_mem_patron
    (h : (i, code) ∈ ([(.charge, 0x42), (.placeHold, 0x45), (.cancelHold, 0x46)] : List (Instr × Word))) :
    RefusesAt i code (fun _ o => ¬ o.tagAndPatronInRange = true) .badOperand
      ∧ RefusesAt i code (fun n o => n = returnStation ∧ o.tagAndPatronInRange = true) .wrongState := by
  rcases List.mem_cons.1 h with hcharge | hrecord
  · obtain ⟨rfl, rfl⟩ := Prod.mk.inj hcharge
    exact ⟨isHandling_charge.refusesRange, isHandling_charge.refusesReturn⟩
  · exact ⟨(isRecordRequest_of_mem hrecord).refusesRange, (isRecordRequest_of_mem hrecord).refusesReturn⟩

/-- Settles O11: each group of requests by what it refuses at the CONTEXT station, FETCH and RECLAIM PLACE after the checks of
their bin. -/
theorem requestsCheckTheirStation : Obligations.RequestsCheckTheirStation := by
  intro s hw tagFits patronFits
  have htag : s.operands.tagInRange = true ↔ tagFits := tagInRange_iff
  have hboth : s.operands.tagAndPatronInRange = true ↔ tagFits ∧ patronFits := tagAndPatronInRange_iff
  refine ⟨fun hst i code h => (actsAtContext_of_mem h).exec_beyond hw hst, fun hst i code => ?ranges, fun hst => ?atReturn,
    fun hst => ?atPick, fun k i code hk ht => ⟨fun h => ?handling, fun h => ?record⟩⟩
  case ranges =>
    have hn : s.operands.station = (⟨s.operands.station, Nat.lt_succ_of_le hst⟩ : StationNo).val := rfl
    exact ⟨fun hno h => (refusesTag_of_mem h).exec hw hn (mt htag.1 hno),
      fun hno h => (refuses_of_mem_patron h).1.exec hw hn fun hr => hno (hboth.1 hr).2⟩
  case atReturn =>
    have hn : s.operands.station = returnStation.val := hst
    refine ⟨fun b r hbin hpr => ?_, fun hpr => dismiss_refusesReturn.exec hw hn ⟨rfl, hpr⟩,
      fun a b r hkind hnumber hpr hbin hrec hholder hzone => ?_, fun ht i code => ⟨fun h => ?_, fun hp h => ?_⟩⟩
    · exact next_refused hw (fetch_return (s := s.storeRequest 0x20) hst hbin hpr)
    · exact next_refused hw
        (reclaimPlace_return (s := s.storeRequest 0x34) hst hkind hnumber hpr hbin hrec hholder hzone)
    · exact (refusesReturn_of_mem_tag h).exec hw hn ⟨rfl, htag.2 ht⟩
    · exact (refuses_of_mem_patron h).2.exec hw hn ⟨rfl, hboth.2 ⟨ht, hp⟩⟩
  case atPick =>
    let n : StationNo := ⟨s.operands.station, by omega⟩
    have hn : s.operands.station = n.val := rfl
    have hpick : n ≠ returnStation := fun h => hst.ne (congrArg Fin.val h)
    exact ⟨fun ht => ⟨returnItem_refusesPick.exec hw hn ⟨hpick, htag.2 ht⟩,
      placeDropped_refusesPick.exec hw hn ⟨hpick, htag.2 ht⟩⟩, fun h => closePosition_refusesPick.exec hw hn ⟨hpick, h⟩⟩
  case handling =>
    obtain ⟨inRange, hreq, hr⟩ : ∃ inRange, IsHandling i code inRange ∧ inRange s.operands = true := by
      rcases h with h | ⟨h, hp⟩
      · exact ⟨_, isHandling_of_mem h, htag.2 ht⟩
      · obtain ⟨rfl, rfl⟩ := Prod.mk.inj h
        exact ⟨_, isHandling_charge, hboth.2 ⟨ht, hp⟩⟩
    exact ⟨hreq.exec_fireHeld hw hk hr, hreq.exec_closed hw hk hr, hreq.exec_noRecord hw hk hr⟩
  case record =>
    obtain ⟨inRange, hreq, hr⟩ : ∃ inRange, IsRecordRequest i code inRange ∧ inRange s.operands = true := by
      rcases h with h | ⟨h, hp⟩
      · obtain ⟨rfl, rfl⟩ := Prod.mk.inj h
        exact ⟨_, isRecordRequest_declareLost, htag.2 ht⟩
      · exact ⟨_, isRecordRequest_of_mem h, hboth.2 ⟨ht, hp⟩⟩
    exact ⟨hreq.exec_closed hw hk hr, hreq.exec_noRecord hw hk hr⟩

end Sys2Proof.Machine
end

section
/-! The records of a keyed table, in the order of their keys (log entry 5). -/
namespace Sys2Proof.Machine

variable {α : Type} {k : Nat} {v : α}

theorem lt_key_of_above {b : Nat} : ∀ {l : Table α}, tableAbove b l = true → ∀ e ∈ l, b < e.1
  | [], _ => by simp
  | (m, w) :: l, h => by
    simp only [tableAbove, Bool.and_eq_true, decide_eq_true_eq] at h
    obtain ⟨hm, hl⟩ := h
    exact List.forall_mem_cons.2 ⟨hm, fun e he => hm.trans (lt_key_of_above hl e he)⟩

theorem keys_pairwise : ∀ {l : Table α}, tableSorted l = true → l.Pairwise fun e f => e.1 < f.1
  | [], _ => .nil
  | (_, _) :: _, h => .cons (lt_key_of_above h) (keys_pairwise (tableSorted_of_above h))

theorem tableFind_eq_some_iff : ∀ {l : Table α}, tableSorted l = true → (tableFind k l = some v ↔ (k, v) ∈ l)
  | [], _ => by simp [tableFind]
  | (m, w) :: l, h => by
    have ih := tableFind_eq_some_iff (tableSorted_of_above h)
    rw [tableFind, List.mem_cons, Prod.mk.injEq, ← ih]
    split
    · subst m
      simp [tableFind_of_above (Nat.le_refl k) h, eq_comm]
    · simp [Ne.symm ‹¬ m = k›]

end Sys2Proof.Machine
end

section
/-! The drop list and the DROPPED items that it names (R136). -/
namespace Sys2Proof.Machine

variable {s t : State} {x : Tag} {i : Item}

/-! ## The DROPPED items -/

/-- Whether a tag is that of a DROPPED item. -/
def State.Dropped (s : State) (x : Tag) : Prop := ∃ i, s.item? x = some i ∧ i.state = .dropped

theorem dropLaw_iff : s.DropLaw ↔ s.dropList.Nodup ∧ ∀ x, x ∈ s.dropList ↔ s.Dropped x := Iff.rfl

theorem dropped_of_record (h : s.item? x = some i) : s.Dropped x ↔ i.state = .dropped := by
  simp [State.Dropped, h]

theorem not_dropped_of_no_record (h : s.item? x = none) : ¬ s.Dropped x := by
  simp [State.Dropped, h]

theorem dropped_of_items (h : t.tab.items = s.tab.items) (y : Tag) : t.Dropped y ↔ s.Dropped y := by
  rw [State.Dropped, State.Dropped, State.item?, State.item?, h]

theorem dropped_of_putItem (h : t.tab.items = (s.putItem x i).tab.items) (y : Tag) :
    t.Dropped y ↔ if y = x then i.state = .dropped else s.Dropped y := by
  rw [dropped_of_items h, State.Dropped, item?_putItem]
  split
  · simp
  · rfl

theorem dropped_of_eraseItem (hm : s.memoryWhole = true) (h : t.tab.items = (s.eraseItem x).tab.items) (y : Tag) :
    t.Dropped y ↔ y ≠ x ∧ s.Dropped y := by
  obtain ⟨-, ⟨hitems, -⟩, -⟩ := memoryWhole_iff.1 hm
  rw [dropped_of_items h, State.Dropped, item?_eraseItem hitems]
  split
  · simp [*]
  · simp [*, State.Dropped]

/-! ## The changes that keep the law -/

/-- The drop list and the item table, which decide the law. -/
def State.drops (s : State) : List Tag × Table Item := (s.dropList, s.tab.items)

theorem drops_of_records (h : t.records = s.records) : t.drops = s.drops :=
  Prod.ext (congrArg Records.dropList h) (congrArg Records.items h)

theorem drops_settle : s.settle.drops = s.drops := drops_of_records records_settle

theorem dropLaw_congr (hs : s.DropLaw) (hlist : t.dropList = s.dropList) (hdropped : ∀ y, t.Dropped y ↔ s.Dropped y) :
    t.DropLaw := by
  obtain ⟨hnodup, hmem⟩ := dropLaw_iff.1 hs
  refine dropLaw_iff.2 ⟨hlist ▸ hnodup, fun y => ?_⟩
  rw [hlist, hmem, hdropped]

theorem dropLaw_of_drops (h : t.drops = s.drops) (hs : s.DropLaw) : t.DropLaw :=
  dropLaw_congr hs (congrArg Prod.fst h) (dropped_of_items (congrArg Prod.snd h))

theorem dropLaw_of_records (h : t.records = s.records) : s.DropLaw → t.DropLaw := dropLaw_of_drops (drops_of_records h)

theorem dropLaw_settle : s.DropLaw → s.settle.DropLaw := dropLaw_of_drops drops_settle

section
variable (hs : s.DropLaw)
include hs

/-- An item's record is written, and it is DROPPED as it was before. -/
theorem dropLaw_putItem (hlist : t.dropList = s.dropList) (hitems : t.tab.items = (s.putItem x i).tab.items)
    (hdropped : i.state = .dropped ↔ s.Dropped x) : t.DropLaw :=
  dropLaw_congr hs hlist fun y => by
    rw [dropped_of_putItem hitems]
    split
    · subst y; exact hdropped
    · rfl

/-- An item joins the tail of the drop list and becomes DROPPED. -/
theorem dropLaw_append (hlist : t.dropList = s.dropList ++ [x]) (hitems : t.tab.items = (s.putItem x i).tab.items)
    (hdropped : i.state = .dropped) (hnew : ¬ s.Dropped x) : t.DropLaw := by
  obtain ⟨hnodup, hmem⟩ := dropLaw_iff.1 hs
  refine dropLaw_iff.2 ⟨?_, fun y => ?_⟩
  · rw [hlist]
    exact List.concat_eq_append ▸ hnodup.concat (mt (hmem x).1 hnew)
  · rw [hlist, List.mem_append, List.mem_singleton, hmem, dropped_of_putItem hitems]
    split <;> simp [*]

/-- An item leaves the drop list and is no longer DROPPED. -/
theorem dropLaw_erase (hlist : t.dropList = s.dropList.erase x) (hdropped : ∀ y, t.Dropped y ↔ y ≠ x ∧ s.Dropped y) :
    t.DropLaw := by
  obtain ⟨hnodup, hmem⟩ := dropLaw_iff.1 hs
  refine dropLaw_iff.2 ⟨hlist ▸ hnodup.erase x, fun y => ?_⟩
  rw [hlist, hnodup.mem_erase_iff, hmem, hdropped]

end

/-! ## The list as a reset makes it anew (R136) -/

theorem droppedTags_nodup {l : Table Item} (h : tableSorted l = true) : (droppedTags l).Nodup := by
  rw [droppedTags_eq]
  exact ((keys_pairwise h).filter _).map _ fun _ _ hlt => Nat.ne_of_lt hlt

theorem mem_droppedTags {l : Table Item} (h : tableSorted l = true) (x : Tag) :
    x ∈ droppedTags l ↔ ∃ i, tableFind x l = some i ∧ i.state = .dropped := by
  simp [droppedTags_eq, tableFind_eq_some_iff h]

/-- A drop list rebuilt from the item table names its DROPPED items, whatever it named before. -/
theorem dropLaw_of_rebuilt (hitems : tableSorted s.tab.items = true) (h : s.dropList = droppedTags s.tab.items) : s.DropLaw := by
  refine dropLaw_iff.2 ⟨h ▸ droppedTags_nodup hitems, fun x => ?_⟩
  rw [h]
  exact mem_droppedTags hitems x

/-! ## The changes that requests make of items -/

theorem dropList_dropHolds : ∀ (ns : List PatronNo) (s : State), (State.dropHolds ns s).dropList = s.dropList
  | [], _ => rfl
  | n :: rest, s => dropList_dropHolds rest (s.holdCountDown n)

theorem dropList_endFormer (x : Tag) (st : ItemState) : (s.endFormer x st).dropList = s.dropList := by cases st <;> rfl

theorem dropList_recall (x : Tag) (st : ItemState) : (s.recall x st).dropList = s.dropList := by
  unfold State.recall
  repeat' split
  all_goals rfl

theorem dropList_placeReturned (p : Position) (b : BinNo) (x : Tag) (holds : List PatronNo) :
    (s.placeReturned p b x holds).dropList = s.dropList := by
  simp only [State.placeReturned]
  repeat' split
  all_goals rfl

/-- A placed item is no longer DROPPED (R135, R137). -/
theorem dropped_placeReturned (p : Position) (b : BinNo) (holds : List PatronNo) (y : Tag) :
    (s.placeReturned p b x holds).Dropped y ↔ y ≠ x ∧ s.Dropped y := by
  obtain ⟨st, hst, htab⟩ := tab_placeReturned (s := s) p b x holds
  have hbin : st ≠ .dropped := fun h => by
    have hshare := hst .items b
    rw [h, share_dropped, share_shelved_self] at hshare
    cases hshare
  have hitems : (s.placeReturned p b x holds).tab.items = (s.putItem x { state := st, holds := holds }).tab.items := by
    rw [htab]
    rfl
  rw [dropped_of_putItem hitems]
  split <;> simp [*]

/-- A dropped item stands at the tail of the drop list, and nothing else changes the list or the items (R135, R136). -/
theorem dropItem_writes (x : Tag) (i : Item) : (s.dropItem x i).dropList = s.dropList ++ [x]
    ∧ (s.dropItem x i).tab.items = (s.putItem x { i with state := .dropped }).tab.items := by
  simp only [State.dropItem, State.reportDrop]
  split
  · have h := records_of_still (still_wakeByNeed
      { s.putItem x { i with state := .dropped } with dropList := s.dropList ++ [x] })
    exact ⟨congrArg Records.dropList h, congrArg Records.items h⟩
  · exact ⟨rfl, rfl⟩

/-- A change of a hold list drops no item, and takes none off the drop list (R122). -/
theorem stateByHolds_eq_dropped (holds : List PatronNo) (st : ItemState) :
    s.stateByHolds holds st = .dropped ↔ st = .dropped := by
  unfold State.stateByHolds
  repeat' split
  all_goals simp only [reduceCtorEq]

theorem heldState_eq_dropped (holds : List PatronNo) (st : ItemState) : s.heldState holds st = .dropped ↔ st = .dropped := by
  unfold State.heldState
  split
  · simp only [reduceCtorEq]
  · exact stateByHolds_eq_dropped holds st

theorem stateInto_ne_dropped (b : BinNo) (r : BinRec) : stateInto b r ≠ .dropped := by
  unfold stateInto
  split <;> exact ItemState.noConfusion

/-- Beside the lent item, a CHARGE writes no item, and it leaves the drop list (R119). -/
theorem chargeItem_writes (origin : BinNo) (n : PatronNo) (due : Nat) :
    (s.chargeItem x i origin n due).dropList = s.dropList
      ∧ (s.chargeItem x i origin n due).tab.items = (s.putItem x (i.lent n due)).tab.items := by
  obtain ⟨ps, hps⟩ := chargeItem_frame s x i origin n due
  rw [hps]
  exact ⟨rfl, rfl⟩

/-! ## The requests that write items -/

section
variable {o : Operands} (hs : s.DropLaw)
include hs

/-- An item that is not DROPPED takes another state that is not DROPPED. -/
theorem dropLaw_restate {j : Item} (hf : s.item? x = some j) (hold : j.state ≠ .dropped) (hnew : i.state ≠ .dropped)
    (hlist : t.dropList = s.dropList) (hitems : t.tab.items = (s.putItem x i).tab.items) : t.DropLaw :=
  dropLaw_putItem hs hlist hitems (iff_of_false hnew fun h => hold ((dropped_of_record hf).1 h))

theorem dropLaw_enrolItem : (enrolItem o s).All State.DropLaw := by
  refine all_atContext fun n => ?_
  repeat' split
  any_goals exact Reply.all_refuse
  have hnew : enrolItemRefusal o.tag n s = none := ‹_›
  simp only [enrolItemRefusal, firstFailing_eq_none, List.forall_mem_cons, Option.isNone_iff_eq_none] at hnew
  obtain ⟨-, -, -, -, hnone, -⟩ := hnew
  exact dropLaw_putItem hs rfl rfl (iff_of_false ItemState.noConfusion (not_dropped_of_no_record hnone))

/-- The list loses the tag of a retired item, if it names it (R27). -/
theorem dropList_retireFrom (hf : s.item? x = some i) : (s.retireFrom x i.state).dropList = s.dropList.erase x := by
  have hlisted : i.state ≠ .dropped → s.dropList.erase x = s.dropList := fun h =>
    List.erase_of_not_mem fun hx => h ((dropped_of_record hf).1 (((dropLaw_iff.1 hs).2 x).1 hx))
  cases hst : i.state with
  | dropped => rfl
  | _ => exact (hlisted (by rw [hst]; exact ItemState.noConfusion)).symm

theorem dropLaw_retireItem (hm : s.memoryWhole = true) : (retireItem o s).All State.DropLaw := by
  unfold retireItem
  repeat' split
  any_goals exact Reply.all_refuse
  rename_i i hi _
  obtain ⟨-, hitems⟩ := tables_dropHolds i.holds (s.retireFrom o.tag i.state)
  refine dropLaw_settle (dropLaw_erase (x := o.tag) hs ((dropList_dropHolds _ _).trans (dropList_retireFrom hs hi)) ?_)
  exact dropped_of_eraseItem hm (congrArg (tableErase o.tag) (hitems.trans (items_retireFrom o.tag i.state)))

theorem dropLaw_pick : (pick o s).All State.DropLaw := by
  refine all_handlingAt fun k => ?_
  repeat' split
  any_goals exact Reply.all_refuse
  rename_i i hi _ b r hb _ hlies
  simp only [pickRefusal, firstFailing_eq_none, List.forall_mem_cons] at hlies
  obtain ⟨hin, -⟩ := hlies
  have hold : i.state ≠ .dropped := fun h => by rw [h] at hin; cases hin
  exact dropLaw_restate hs hi hold (i := { i with state := .picked k b }) ItemState.noConfusion rfl rfl

theorem dropLaw_putBack : (putBack o s).All State.DropLaw := by
  refine all_handlingAt fun k => ?_
  repeat' split
  any_goals exact Reply.all_refuse
  rename_i i hi _ origin horigin _ target r _ _ _
  have hold : i.state ≠ .dropped := by rw [picked_of_originAt? horigin]; exact ItemState.noConfusion
  exact dropLaw_restate hs hi hold (i := { i with state := stateInto target r }) (stateInto_ne_dropped target r) rfl rfl

theorem dropLaw_charge : (charge o s).All State.DropLaw := by
  unfold charge chargeUnder
  refine all_handlingAt fun k => ?_
  dsimp only
  repeat' split
  any_goals exact Reply.all_refuse
  rename_i i hi _ origin horigin _ _ _ _ _ _
  have hold : i.state ≠ .dropped := by rw [picked_of_originAt? horigin]; exact ItemState.noConfusion
  obtain ⟨hlist, hitems⟩ := chargeItem_writes (s := s) (x := o.tag) (i := i) origin o.secondPatron (s.tab.day + o.cell 4)
  exact dropLaw_restate hs hi hold (i := i.lent _ _) ItemState.noConfusion hlist hitems

theorem dropLaw_renew : (renew o s).All State.DropLaw := by
  refine all_handlingAt fun k => ?_
  unfold renewLoan
  repeat' split
  any_goals exact Reply.all_refuse
  rename_i i hi _ n due renewals hst _ _ _ _ _
  exact dropLaw_restate hs hi (by rw [hst]; exact ItemState.noConfusion) (i := { i with state := .onLoan n _ _ })
    ItemState.noConfusion rfl rfl

theorem dropLaw_declareLost : (declareLost o s).All State.DropLaw := by
  have lost : ∀ (t : State) {i : Item}, t.dropList = s.dropList → t.tab.items = s.tab.items →
      s.item? o.tag = some i → i.state ≠ .dropped → (t.loseItem o.tag i).DropLaw := fun t i hlist hitems hi hold => by
    obtain ⟨-, hdrop⟩ := tables_dropHolds i.holds t
    exact dropLaw_restate hs hi hold (i := { state := .lost, holds := [] }) ItemState.noConfusion
      ((dropList_dropHolds i.holds t).trans hlist) (congrArg (tableInsert o.tag _) (hdrop.trans hitems))
  refine all_recordAt ?_
  repeat' split
  any_goals exact Reply.all_refuse
  · rename_i i hi _ n due j hst
    exact lost (s.removeLoan n o.tag) rfl rfl hi (by rw [hst]; exact ItemState.noConfusion)
  · rename_i i hi _ b hst _
    exact lost (s.countOut b) rfl rfl hi (by rw [hst]; exact ItemState.noConfusion)

theorem dropLaw_placeHold : (placeHold o s).All State.DropLaw := by
  refine all_recordAt ?_
  dsimp only
  repeat' split
  any_goals exact Reply.all_refuse
  rename_i i hi _ _ _ _ _
  obtain ⟨-, hitems⟩ := tables_recall (s := (s.putItem o.tag
    { state := s.heldState (i.holds ++ [o.secondPatron]) i.state, holds := i.holds ++ [o.secondPatron] }).holdCountUp
      o.secondPatron) o.tag i.state
  exact dropLaw_putItem hs (dropList_recall o.tag i.state) hitems
    ((heldState_eq_dropped _ _).trans (dropped_of_record hi).symm)

theorem dropLaw_cancelHold : (cancelHold o s).All State.DropLaw := by
  refine all_recordAt ?_
  repeat' split
  any_goals exact Reply.all_refuse
  rename_i i hi _
  exact dropLaw_putItem hs rfl rfl ((stateByHolds_eq_dropped _ _).trans (dropped_of_record hi).symm)

theorem dropLaw_returnItem : (returnItem o s).All State.DropLaw := by
  refine all_atContext fun n => ?_
  dsimp only [returnAccepted]
  split
  · exact Reply.all_refuse
  split
  · exact Reply.all_refuse
  rename_i i hi
  split
  · exact Reply.all_refuse
  rename_i hret
  simp only [returnItemRefusal, firstFailing_eq_none, List.forall_mem_cons, decide_eq_true_eq] at hret
  obtain ⟨-, hnotDropped, -⟩ := hret
  have hnew : ¬ s.Dropped o.tag := mt (dropped_of_record hi).1 hnotDropped
  have hlist := dropList_endFormer (s := s) o.tag i.state
  have hitems := items_endFormer (s := s) o.tag i.state
  split
  · refine dropLaw_settle (dropLaw_congr hs ((dropList_placeReturned _ _ _ _).trans hlist) fun y => ?_)
    rw [dropped_placeReturned, dropped_of_items hitems]
    exact and_iff_right_of_imp fun hy hyx => hnew (hyx ▸ hy)
  · obtain ⟨hdrop, hput⟩ := dropItem_writes (s := s.endFormer o.tag i.state) o.tag i
    exact dropLaw_settle (dropLaw_append hs (hdrop.trans (congrArg (· ++ [o.tag]) hlist))
      (hput.trans (congrArg (tableInsert o.tag _) hitems)) rfl hnew)

theorem dropLaw_placeDropped : (placeDropped o s).All State.DropLaw := by
  refine all_atContext fun n => ?_
  repeat' split
  any_goals exact Reply.all_refuse
  exact dropLaw_settle (dropLaw_erase hs (dropList_placeReturned _ _ _ _)
    (dropped_placeReturned (s := { s with dropList := s.dropList.erase o.tag }) _ _ _))

end

/-- The soft reset makes the list anew (R136, R168). -/
theorem dropLaw_resetController {o : Operands} (hm : s.memoryWhole = true) : (resetController o s).All State.DropLaw := by
  obtain ⟨-, ⟨hitems, -⟩, -⟩ := memoryWhole_iff.1 hm
  exact dropLaw_settle (dropLaw_of_rebuilt (s := s.softResetBlocks) hitems rfl)

/-! ## Every request, and every step -/

/-- The codes of the requests that write records other than those of items and the drop list. -/
def itemlessCodes : List Nat := [0x01, 0x02, 0x03, 0x09, 0x0A, 0x13, 0x14, 0x15, 0x60]

theorem drops_itemless {n : Nat} {e : Evaluation} (he : evaluationOf? n = some e) (hn : n ∈ itemlessCodes) (o : Operands) :
    (e o s).All fun t => t.drops = s.drops := by
  fin_cases hn <;> cases he
  all_goals
    simp only [enrolBin, retireBin, setPlace, setDay, setCategory, enrolPatron, retirePatron, setPatronBlock, setDeadline,
      onPatron]
    repeat' split
  all_goals simp only [Reply.All, drops_settle]
  all_goals rfl

theorem dropLaw_evaluation {n : Nat} {e : Evaluation} (he : evaluationOf? n = some e) (o : Operands)
    (hm : s.memoryWhole = true) (hs : s.DropLaw) : (e o s).All State.DropLaw := by
  refine all_evaluation dropLaw_of_records he hs fun hn => ?_
  by_cases hother : n ∈ itemlessCodes
  · exact (drops_itemless he hother o).mono fun t h => dropLaw_of_drops h hs
  · fin_cases hn <;> cases he
    all_goals simp [itemlessCodes] at hother
    exacts [dropLaw_enrolItem hs, dropLaw_retireItem hs hm, dropLaw_pick hs, dropLaw_putBack hs, dropLaw_charge hs,
      dropLaw_renew hs, dropLaw_declareLost hs, dropLaw_placeHold hs, dropLaw_cancelHold hs, dropLaw_returnItem hs,
      dropLaw_placeDropped hs, dropLaw_resetController hm]

/-- The memory whole and the drop list in agreement, which the evaluations need together. -/
theorem dropLaw_stepLaw : StepLaw fun s => s.memoryWhole = true ∧ s.DropLaw :=
  .ofRecords (fun h => And.imp (memoryWhole_of_records h) (dropLaw_of_records h))
    fun he o ⟨hm, hs⟩ => (memoryWhole_evaluation he o hm).and (dropLaw_evaluation he o hm hs)

/-- Start-up makes the list anew (R136, R170). -/
theorem dropLaw_startUp (hm : s.memoryWhole = true) : s.startUp.DropLaw := by
  obtain ⟨-, ⟨hitems, -⟩, -⟩ := memoryWhole_iff.1 (memoryWhole_startUp hm)
  refine dropLaw_of_rebuilt hitems ?_
  rw [dropList_startUp, tab_startUp]

/-- Settles O58: every request moves an item and the list together, the resets make the list anew, and no other part of a step
changes either. -/
theorem dropListNamesDroppedItems : Obligations.DropListNamesDroppedItems := by
  intro s t hm hs h
  obtain ⟨-, hdrops⟩ := dropLaw_stepLaw.step (fun _ hu => hu)
    (fun ⟨hm, _⟩ _ => ⟨memoryWhole_startUp hm, dropLaw_startUp hm⟩) ⟨hm, hs⟩ h
  exact hdrops

end Sys2Proof.Machine
end

section
/-! RETURN ITEM and PLACE DROPPED (R134, R135, R137). -/
namespace Sys2Proof.Machine

variable {s : State} {o : Operands} {i : Item} {b : BinNo} {r : BinRec} {x : Tag} {p : Position}

/-! ## Checks in a row -/

theorem checkedReply_of_some {refusal : Option Code} {c : Code} (h : refusal = some c) (reply : Reply) :
    checkedReply refusal reply = .refuse c := by
  rw [h]; rfl

theorem checkedReply_of_none {refusal : Option Code} (h : refusal = none) (reply : Reply) :
    checkedReply refusal reply = reply := by
  rw [h]; rfl

theorem checkedReply_append (l m : List (Bool × Code)) (reply : Reply) :
    checkedReply (firstFailing (l ++ m)) reply = checkedReply (firstFailing l) (checkedReply (firstFailing m) reply) := by
  rw [firstFailing_append]
  cases firstFailing l <;> rfl

/-! ## The checks of both requests (R134, R137) -/

/-- The return station is OPEN: checks 3 and 4 of R134. -/
def State.returnOpenChecks (s : State) : List (Bool × Code) :=
  [(!(s.stationState 4).isFireHeld, .zoneLocked), (decide (s.stationState 4 = .opened), .stationClosed)]

theorem returnRefusal_return (ht : o.tagInRange = true) :
    returnRefusal o.tag returnStation s = firstFailing s.returnOpenChecks :=
  firstFailing_pass ht

/-- Checks 6 to 8 of R134 on the item. -/
def State.returnChecks (s : State) (i : Item) : List (Bool × Code) :=
  [(match i.state with | .shelved _ => false | .held _ => false | _ => true, .wrongState),
   (decide (i.state ≠ .dropped), .duplicate),
   ((s.presentedIn? (routeOf i)).isSome || decide (s.dropList.length < 32), .dropFull)]

theorem returnItemRefusal_eq : returnItemRefusal s i = firstFailing (s.returnChecks i) := by
  have hlies : (decide (i.state.code ≠ 0) && decide (i.state.code ≠ 1)) =
      match i.state with | .shelved _ => false | .held _ => false | _ => true := by
    cases i.state <;> rfl
  rw [returnItemRefusal, hlies]
  rfl

/-- The further checks of R137 on the item. -/
def State.placeChecks (s : State) (i : Item) : List (Bool × Code) :=
  [(decide (i.state = .dropped), .wrongState),
   ((s.presentedIn? (routeOf i)).isSome || (s.position (routeOf i)).isFullWaiting, .notPresented),
   ((s.presentedIn? (routeOf i)).isSome, .binFull)]

section
variable (hst : o.station = 4) (ht : o.tagInRange = true)
include hst ht

theorem returnItem_noRecord (hi : s.item? o.tag = none) :
    returnItem o s = checkedReply (firstFailing (s.returnOpenChecks ++ [(false, .noRecord)])) (.refuse .noRecord) := by
  refine (atContext_station (n := returnStation) hst).trans ?_
  rw [returnRefusal_return ht, hi, checkedReply_append]
  rfl

theorem placeDropped_noRecord (hi : s.item? o.tag = none) :
    placeDropped o s = checkedReply (firstFailing (s.returnOpenChecks ++ [(false, .noRecord)])) (.refuse .noRecord) := by
  refine (atContext_station (n := returnStation) hst).trans ?_
  rw [returnRefusal_return ht, hi, checkedReply_append]
  rfl

theorem returnItem_known (hi : s.item? o.tag = some i) :
    returnItem o s = checkedReply (firstFailing (s.returnOpenChecks ++ s.returnChecks i)) (returnAccepted o.tag i s) := by
  refine (atContext_station (n := returnStation) hst).trans ?_
  rw [returnRefusal_return ht, hi, checkedReply_append, ← returnItemRefusal_eq]
  rfl

theorem placeDropped_known (hi : s.item? o.tag = some i) :
    placeDropped o s = checkedReply (firstFailing (s.returnOpenChecks ++ s.placeChecks i))
      ((s.presentedIn? (routeOf i)).elim (.refuse .binFull) fun b => placeAccepted o.tag i b s) := by
  refine (atContext_station (n := returnStation) hst).trans ?_
  rw [returnRefusal_return ht, hi, checkedReply_append]
  have hown : (if i.state = .dropped then
      match s.presentedIn? (routeOf i) with
      | some b => placeAccepted o.tag i b s
      | none => .refuse (if (s.position (routeOf i)).isFullWaiting then .binFull else .notPresented)
    else .refuse .wrongState) = checkedReply (firstFailing (s.placeChecks i))
      ((s.presentedIn? (routeOf i)).elim (.refuse .binFull) fun b => placeAccepted o.tag i b s) := by
    by_cases hdropped : i.state = .dropped
    · rw [if_pos hdropped, State.placeChecks, firstFailing_pass (decide_eq_true hdropped)]
      cases s.presentedIn? (routeOf i) with
      | some b => rfl
      | none => cases (s.position (routeOf i)).isFullWaiting <;> rfl
    · rw [if_neg hdropped, State.placeChecks, firstFailing_fail (by simpa using hdropped)]
      rfl
  rw [← hown]
  rfl

end

/-! ## The bin of the route (R127, R135) -/

theorem presentedIn?_of_presented (hp : s.position p = .presented b) (hb : s.binRec? b = some r) :
    s.presentedIn? p = some b := by
  simp [State.presentedIn?, hp, hb]

theorem binRec?_endFormer (hb : s.binRec? b = some r) (x : Tag) (st : ItemState) :
    ∃ k, (s.endFormer x st).binRec? b = some { r with pickedOut := k } := by
  cases st with
  | picked j origin =>
    refine ⟨if b = origin then r.pickedOut - 1 else r.pickedOut, (binRec?_changeBin_map origin b _).trans ?_⟩
    rw [hb]
    split <;> simp [*]
  | _ => exact ⟨r.pickedOut, hb⟩

theorem presentedIn?_endFormer (x : Tag) (st : ItemState) (p : Position) :
    (s.endFormer x st).presentedIn? p = s.presentedIn? p := by
  have hpos : (s.endFormer x st).position p = s.position p := by cases st <;> rfl
  simp only [State.presentedIn?, hpos, isSome_binRec?_endFormer]

/-! ## The item placed (R135, R137) -/

/-- The item as it lies in the bin of its route. -/
def Item.placedIn (i : Item) (b : BinNo) : Item :=
  { state := if i.holds = [] then .shelved b else .held b, holds := i.holds }

/-- The item is written and counted into a bin, and a bin at its capacity makes its position FULL_WAITING. -/
def State.placeRouted (x : Tag) (i : Item) (b : BinNo) (r : BinRec) (s : State) : State :=
  if r.itemCount + 1 < r.capacity then (s.putItem x (i.placedIn b)).countIn b
  else ((s.putItem x (i.placedIn b)).countIn b).setPosition (routeOf i) (.fullWaiting b)

/-- A bin's count once an item has been placed in it, with its full mark (R182). -/
def BinRec.placedCount (r : BinRec) : Word :=
  word ((if r.itemCount + 1 < r.capacity then 0 else 32768) + (r.itemCount + 1))

theorem binRec?_countIn_self (hb : s.binRec? b = some r) :
    (s.countIn b).binRec? b = some { r with itemCount := r.itemCount + 1 } := by
  rw [binRec?_countIn, hb]
  exact congrArg some (if_pos rfl)

theorem placeReturned_eq (hb : s.binRec? b = some r) (x : Tag) (i : Item) :
    s.placeReturned (routeOf i) b x i.holds = s.placeRouted x i b r := by
  have hcount (j : Item) := binRec?_countIn_self (s := s.putItem x j) hb
  by_cases h : i.holds = []
  · simp only [State.placeReturned, State.placeRouted, routeOf, Item.placedIn, if_pos h, hcount]
  · simp only [State.placeReturned, State.placeRouted, routeOf, Item.placedIn, if_neg h, hcount]

theorem binRec?_placeRouted (hb : s.binRec? b = some r) (x : Tag) (i : Item) :
    (s.placeRouted x i b r).binRec? b = some { r with itemCount := r.itemCount + 1 } := by
  have hcount := binRec?_countIn_self (s := s.putItem x (i.placedIn b)) hb
  unfold State.placeRouted
  split
  · exact hcount
  · exact hcount

theorem countCell_placeRouted (hb : s.binRec? b = some r) (x : Tag) (i : Item) :
    (s.placeRouted x i b r).countCell b = r.placedCount := by
  have hrec := binRec?_placeRouted hb x i
  by_cases h : r.itemCount + 1 < r.capacity
  · simp [State.countCell, State.binFull, State.itemCountOf, BinRec.placedCount, hrec, h, Nat.not_le.2 h, flagCode]
  · simp [State.countCell, State.binFull, State.itemCountOf, BinRec.placedCount, hrec, h, Nat.le_of_not_lt h, flagCode]

theorem placeAccepted_eq (hb : s.binRec? b = some r) (x : Tag) (i : Item) :
    placeAccepted x i b s = .answer .ok
      { a0 := word (routeOf i).code, a1 := word b.val, a2 := r.placedCount, a3 := word (s.dropList.erase x).length }
      (State.placeRouted x i b r { s with dropList := s.dropList.erase x }).settle := by
  have hrec : ({ s with dropList := s.dropList.erase x } : State).binRec? b = some r := hb
  have hlist : (State.placeRouted x i b r { s with dropList := s.dropList.erase x }).dropList = s.dropList.erase x := by
    unfold State.placeRouted
    split <;> rfl
  simp only [placeAccepted, placeReturned_eq hrec, countCell_placeRouted hrec, hlist]

theorem returnAccepted_placed (hp : s.position (routeOf i) = .presented b) (hb : s.binRec? b = some r) (x : Tag) :
    returnAccepted x i s = .answer .ok (i.returnAnswer (word b.val) r.placedCount)
      ((s.endFormer x i.state).placeRouted x i b r).settle := by
  obtain ⟨k, hk⟩ := binRec?_endFormer hb x i.state
  have hpos := (presentedIn?_endFormer x i.state (routeOf i)).trans (presentedIn?_of_presented hp hb)
  simp only [returnAccepted, hpos, placeReturned_eq hk, countCell_placeRouted hk]
  rfl

/-! ## The item dropped (R135, R136) -/

/-- The item is written DROPPED at the tail of the drop list, which wakes the wing at a length of 24 or more. -/
def State.dropAtTail (x : Tag) (i : Item) (l : List Tag) (s : State) : State :=
  let u : State := { s.putItem x { i with state := .dropped } with dropList := l ++ [x] }
  if 24 ≤ l.length + 1 then u.wakeByNeed else u

theorem dropItem_eq (x : Tag) (i : Item) : s.dropItem x i = s.dropAtTail x i s.dropList := by
  simp only [State.dropItem, State.reportDrop, State.dropAtTail, State.putItem_dropList, List.length_append,
    List.length_singleton]
  rfl

theorem returnAccepted_dropped (hp : s.presentedIn? (routeOf i) = none) (x : Tag) :
    returnAccepted x i s = .answer .ok (i.returnAnswer noneWord (bytePair s.dropList.length (s.dropList.length + 1)))
      ((s.endFormer x i.state).dropAtTail x i s.dropList).settle := by
  have hpos := (presentedIn?_endFormer x i.state (routeOf i)).trans hp
  simp only [returnAccepted, hpos, dropItem_eq, dropList_endFormer]

/-! ## The former state and its patron (R135, R182) -/

theorem patronField_lt (st : ItemState) : st.patronField < 16 := by
  cases st with
  | onLoan n due k => exact Nat.mod_lt _ (by decide)
  | _ => exact BitVec.isLt _

theorem patronField_onLoan {st : ItemState} {n due k : Nat} (h : st = .onLoan n due k) :
    st.patronField = n / 65536 % 16 := by
  rw [h]; rfl

/-- Settles O42: each request's checks in order, and the bin or the drop list that takes the item. -/
theorem returnsArePlacedOrDropped : Obligations.ReturnsArePlacedOrDropped := by
  intro s hw hst hlo hhi
  have ht : s.operands.tagInRange = true := tagInRange_iff.2 ⟨hlo, hhi⟩
  refine ⟨fun hi c hc => ⟨?_, ?_⟩, fun i hi => ⟨fun c hc => ?_, fun hpass => ?_, fun c hc => ?_, fun hpass b r hp hb => ?_⟩⟩
  · exact next_refused hw ((returnItem_noRecord (s := s.storeRequest 0x50) hst ht hi).trans (checkedReply_of_some hc _))
  · exact next_refused hw ((placeDropped_noRecord (s := s.storeRequest 0x51) hst ht hi).trans (checkedReply_of_some hc _))
  · exact next_refused hw ((returnItem_known (s := s.storeRequest 0x50) hst ht hi).trans (checkedReply_of_some hc _))
  · have hreply := (returnItem_known (s := s.storeRequest 0x50) hst ht hi).trans (checkedReply_of_none hpass _)
    refine ⟨i.state.patronField, patronField_lt i.state, fun n due k h => patronField_onLoan h, fun b r hp hb => ?_,
      fun hp => ?_⟩
    · exact next_answered hw (hreply.trans (returnAccepted_placed (s := s.storeRequest 0x50) hp hb s.operands.tag))
    · exact next_answered hw (hreply.trans (returnAccepted_dropped (s := s.storeRequest 0x50) hp s.operands.tag))
  · exact next_refused hw ((placeDropped_known (s := s.storeRequest 0x51) hst ht hi).trans (checkedReply_of_some hc _))
  · refine next_answered hw ((placeDropped_known (s := s.storeRequest 0x51) hst ht hi).trans
      ((checkedReply_of_none hpass _).trans ?_))
    rw [presentedIn?_of_presented (s := s.storeRequest 0x51) (p := routeOf i) hp hb]
    exact placeAccepted_eq (s := s.storeRequest 0x51) hb s.operands.tag i

end Sys2Proof.Machine
end

section
/-! CLOSE POSITION and READ DROP LIST (R132, R138). -/
namespace Sys2Proof.Machine

variable {s : State} {o : Operands} {p : Position} {b : BinNo}

/-! ## The position named (R179) -/

@[simp] theorem position_ofCode_code (p : Position) : Position.ofCode p.code = some p := by cases p <;> rfl

theorem position_ofCode_of_large {n : Nat} (h : 1 < n) : Position.ofCode n = none := by
  match n, h with
  | n + 2, _ => rfl

/-! ## CLOSE POSITION (R132) -/

theorem closeAnswer_eq (s : State) (p : Position) (b : BinNo) : s.closeAnswer p b =
    { a0 := if s.position p = .fullWaiting b then 0xFFFF else
        match s.binRec? b with
        | some r => (match r.holder with | some e => word e.val | none => 0xFFFF)
        | none => 0xFFFF
      a1 := word (s.position p).code } := by
  have hholder (r : BinRec) : wordOrNone (r.holder.map (·.val)) =
      match r.holder with | some e => word e.val | none => 0xFFFF := by
    cases r.holder <;> rfl
  simp only [State.closeAnswer, hholder]
  rfl

theorem closePosition_badOperand (h : 1 < o.cell 0) : closePosition o s = .refuse .badOperand := by
  simp only [closePosition, atContext, position_ofCode_of_large h]
  cases o.station? <;> rfl

section
variable (hst : o.station = 4) (hcode : o.cell 0 = p.code)
include hst hcode

theorem closePosition_return : closePosition o s =
    if (s.stationState 4).isFireHeld then .refuse .zoneLocked
    else match s.position p with
      | .presented b =>
        let t := (s.setPosition p (.fullWaiting b)).settle
        .answer .ok (t.closeAnswer p b) t
      | .fullWaiting b => .answer .ok (s.closeAnswer p b) s
      | _ => .refuse .notPresented := by
  refine (atContext_station (n := returnStation) hst).trans ?_
  rw [hcode, position_ofCode_code]
  rfl

theorem closePosition_fireHeld (h : (s.stationState 4).isFireHeld = true) : closePosition o s = .refuse .zoneLocked := by
  rw [closePosition_return hst hcode, if_pos h]

variable (hfree : (s.stationState 4).isFireHeld = false)
include hfree

theorem closePosition_presented (hp : s.position p = .presented b) : closePosition o s =
    .answer .ok ((s.setPosition p (.fullWaiting b)).settle.closeAnswer p b) (s.setPosition p (.fullWaiting b)).settle := by
  rw [closePosition_return hst hcode, hfree, hp]
  rfl

theorem closePosition_fullWaiting (hp : s.position p = .fullWaiting b) :
    closePosition o s = .answer .ok { a0 := 0xFFFF, a1 := 4 } s := by
  rw [closePosition_return hst hcode, hfree, hp]
  simp only [closeAnswer_eq, hp, if_true]
  rfl

theorem closePosition_notPresented (hp : s.position p = .empty ∨ s.position p = .wanting ∨ ∃ e, s.position p = .arriving e) :
    closePosition o s = .refuse .notPresented := by
  rw [closePosition_return hst hcode, hfree]
  obtain hp | hp | ⟨e, hp⟩ := hp
  all_goals rw [hp]; rfl

end

/-! ## READ DROP LIST (R138) -/

theorem dropAnswer_beyond {k : Nat} (h : s.dropList.length ≤ k) :
    s.dropAnswer k = { a0 := word s.dropList.length, a3 := 0xFFFF } := by
  simp only [State.dropAnswer, List.getElem?_eq_none h]
  rfl

theorem dropAnswer_entry {k : Nat} {t : Tag} {i : Item} (h : s.dropList[k]? = some t) (hi : s.item? t = some i) :
    s.dropAnswer k = { a0 := word s.dropList.length, a1 := word (t / 65536), a2 := word t
                       a3 := if i.holds = [] then 0 else 1 } := by
  have hroute : wordOrNone (s.routeOfTag? t) = if i.holds = [] then 0 else 1 := by
    rw [State.routeOfTag?, hi]
    by_cases hh : i.holds = []
    · rw [if_pos hh, Option.map_some, routeOf, if_pos hh]; rfl
    · rw [if_neg hh, Option.map_some, routeOf, if_neg hh]; rfl
  simp only [State.dropAnswer, h, hroute]
  rfl

theorem readDropList_badOperand (h : 31 < o.cell 0) : readDropList o s = .refuse .badOperand := if_neg (Nat.not_le.2 h)

theorem readDropList_answers (h : o.cell 0 ≤ 31) : readDropList o s = .answer .ok (s.dropAnswer (o.cell 0)) s := if_pos h

/-- Settles O43: CLOSE POSITION by the position's state, and READ DROP LIST by the index. -/
theorem positionsCloseAndDropListReads : Obligations.PositionsCloseAndDropListReads := by
  refine fun s hw => ⟨fun p hst hcode => ⟨fun h => ?_, fun hfree => ⟨fun b hp => ?_, fun b hp => ?_, fun hp => ?_⟩⟩,
    fun h => ?_, fun h => ?_, fun hk => ⟨fun h => ?_, fun t i h hi => ?_⟩⟩
  · exact next_refused hw (closePosition_fireHeld (s := s.storeRequest 0x52) hst hcode h)
  · refine (next_answered hw (closePosition_presented (s := s.storeRequest 0x52) hst hcode hfree hp)).trans ?_
    generalize ((s.storeRequest 0x52).setPosition p (.fullWaiting b)).settle = u
    exact congrArg (fun a => (.next (u.endRequest .ok a) : Result)) (closeAnswer_eq u p b)
  · exact next_answered hw (closePosition_fullWaiting (s := s.storeRequest 0x52) hst hcode hfree hp)
  · exact next_refused hw (closePosition_notPresented (s := s.storeRequest 0x52) hst hcode hfree hp)
  · exact next_refused hw (closePosition_badOperand h)
  · exact next_refused hw (readDropList_badOperand h)
  · exact next_answered hw ((readDropList_answers hk).trans
      (congrArg (Reply.answer .ok · _) (dropAnswer_beyond (s := s.storeRequest 0x53) h)))
  · exact next_answered hw ((readDropList_answers hk).trans
      (congrArg (Reply.answer .ok · _) (dropAnswer_entry (s := s.storeRequest 0x53) h hi)))

end Sys2Proof.Machine
end

section
/-! The pools of the return station (R16 to R18). -/
namespace Sys2Proof.Machine

variable {s : State} {p : Position} {b : BinNo}

/-! ## The members of a pool -/

theorem inPool_iff (s : State) (p : Position) (b : BinNo) (r : BinRec) : s.inPool p b r = true ↔
    (match p with
      | .intake => r.kind = .intake ∧ r.itemCount = 0
      | .hold => r.kind = .hold ∧ r.itemCount < r.capacity)
    ∧ r.place = .home ∧ r.holder = none ∧ s.zoneState (zoneOf (s.homeAisle b)) = .normal := by
  cases p <;> simp [State.inPool, BinRec.fitsPool, State.homeNormal, State.aisleNormal, zoneNormal_iff, and_assoc]

/-- The bin of a record of the bin table, if it is a member of a pool. -/
def State.pooled? (s : State) (p : Position) (e : Nat × BinRec) : Option BinNo :=
  match bin? e.1 with
  | some b => if s.inPool p b e.2 then some b else none
  | none => none

theorem poolFirst?_eq (s : State) (p : Position) : s.poolFirst? p = s.tab.bins.findSome? (s.pooled? p) := rfl

theorem pooled?_eq_some {e : Nat × BinRec} : s.pooled? p e = some b ↔ e.1 = b.val ∧ s.inPool p b e.2 = true := by
  have hbin : bin? e.1 = some b ↔ e.1 = b.val := index?_eq_some
  unfold State.pooled?
  split
  · rename_i c hc
    have hval : e.1 = c.val := index?_eq_some.1 hc
    have hbc : e.1 = b.val ↔ c = b := by rw [hval, Fin.ext_iff]
    rw [hbc]
    split
    · simp only [Option.some.injEq]
      exact ⟨fun h => ⟨h, h ▸ ‹_›⟩, fun h => h.1⟩
    · simp only [reduceCtorEq, false_iff]
      rintro ⟨rfl, h⟩
      exact absurd h ‹_›
  · rename_i hnone
    rw [hnone] at hbin
    simp [← hbin]

/-! ## The first member (R18) -/

section
variable (hsorted : tableSorted s.tab.bins = true)
include hsorted

theorem binRec?_iff_mem {r : BinRec} : s.binRec? b = some r ↔ (b.val, r) ∈ s.tab.bins := tableFind_eq_some_iff hsorted

/-- The first member is a member, and no lower bin number is one. -/
theorem poolFirst?_lowest (h : s.poolFirst? p = some b) : (∃ r, s.binRec? b = some r ∧ s.inPool p b r = true)
    ∧ ∀ b' r', b' < b → s.binRec? b' = some r' → s.inPool p b' r' = false := by
  rw [poolFirst?_eq] at h
  obtain ⟨before, ⟨k, r⟩, behind, hsplit, hfound, hbefore⟩ := List.findSome?_eq_some_iff.1 h
  obtain ⟨hk, hmember⟩ := pooled?_eq_some.1 hfound
  obtain rfl : k = b.val := hk
  refine ⟨⟨r, (binRec?_iff_mem hsorted).2 (by simp [hsplit]), hmember⟩, fun b' r' hlt hrec => ?_⟩
  have hkeys := keys_pairwise hsorted
  have hmem := (binRec?_iff_mem hsorted).1 hrec
  rw [hsplit, List.pairwise_append, List.pairwise_cons] at hkeys
  obtain ⟨-, ⟨hbehind, -⟩, -⟩ := hkeys
  rw [hsplit, List.mem_append, List.mem_cons] at hmem
  rcases hmem with hmem | hmem | hmem
  · exact Bool.eq_false_iff.2 fun hpool => by
      have hnone := hbefore _ hmem
      rw [pooled?_eq_some.2 ⟨rfl, hpool⟩] at hnone
      cases hnone
  · obtain ⟨hval, -⟩ := Prod.mk.inj hmem
    exact absurd (Fin.ext hval) (Fin.ne_of_lt hlt)
  · have hgt : b.val < b'.val := hbehind _ hmem
    exact absurd hlt (Nat.lt_asymm hgt)

theorem poolFirst?_isSome {r : BinRec} (hrec : s.binRec? b = some r) (hpool : s.inPool p b r = true) :
    ∃ c, s.poolFirst? p = some c := by
  have hmember : s.pooled? p (b.val, r) = some b := pooled?_eq_some.2 ⟨rfl, hpool⟩
  exact Option.isSome_iff_exists.1 (List.findSome?_isSome_iff.2 ⟨_, (binRec?_iff_mem hsorted).1 hrec,
    Option.isSome_iff_exists.2 ⟨b, hmember⟩⟩)

theorem poolFirst?_eq_some : s.poolFirst? p = some b ↔ (∃ r, s.binRec? b = some r ∧ s.inPool p b r = true)
    ∧ ∀ b' r', b' < b → s.binRec? b' = some r' → s.inPool p b' r' = false := by
  refine ⟨poolFirst?_lowest hsorted, fun ⟨⟨r, hrec, hpool⟩, hlowest⟩ => ?_⟩
  obtain ⟨c, hc⟩ := poolFirst?_isSome hsorted hrec hpool
  obtain ⟨⟨r', hrec', hpool'⟩, hlowest'⟩ := poolFirst?_lowest hsorted hc
  obtain hlt | rfl | hgt := lt_trichotomy b c
  · rw [hlowest' b r hlt hrec] at hpool
    cases hpool
  · exact hc
  · rw [hlowest c r' hgt hrec'] at hpool'
    cases hpool'

theorem poolFirst?_eq_none : s.poolFirst? p = none ↔ ∀ b r, s.binRec? b = some r → s.inPool p b r = false := by
  refine ⟨fun h b r hrec => Bool.eq_false_iff.2 fun hpool => ?_, fun h => Option.eq_none_iff_forall_ne_some.2 fun b hb => ?_⟩
  · obtain ⟨c, hc⟩ := poolFirst?_isSome hsorted hrec hpool
    rw [h] at hc
    cases hc
  · obtain ⟨⟨r, hrec, hpool⟩, -⟩ := poolFirst?_lowest hsorted hb
    rw [h b r hrec] at hpool
    cases hpool

end

end Sys2Proof.Machine
end

section
/-! The return station dismisses full positions and calls bins for empty ones (R129, R131). -/
namespace Sys2Proof.Machine

variable {s : State} {p : Position} {b : BinNo} {e : OrderNo} {r : BinRec}

/-! ## What waking leaves (R67) -/

theorem freeEntry?_wakeByNeed (s : State) : s.wakeByNeed.freeEntry? = s.freeEntry? := by
  obtain ⟨q, v, l, h⟩ := wakeByNeed_frame s
  rw [h]
  rfl

theorem poolFirst?_wakeByNeed (s : State) (p : Position) : s.wakeByNeed.poolFirst? p = s.poolFirst? p := by
  obtain ⟨q, v, l, h⟩ := wakeByNeed_frame s
  rw [h]
  rfl

theorem binRec?_wakeByNeed (s : State) (b : BinNo) : s.wakeByNeed.binRec? b = s.binRec? b := by
  obtain ⟨q, v, l, h⟩ := wakeByNeed_frame s
  rw [h]
  rfl

theorem queue_wakeByNeed (s : State) (a : Aisle) : s.wakeByNeed.queue a = s.queue a := by
  obtain ⟨q, v, l, h⟩ := wakeByNeed_frame s
  rw [h]
  rfl

theorem orders_wakeByNeed (s : State) : s.wakeByNeed.ou.orders = s.ou.orders := by
  obtain ⟨q, v, l, h⟩ := wakeByNeed_frame s
  rw [h]

theorem claims_fileClaim (s : State) (c : Claim) : (s.fileClaim c).claims c.rank = true := by
  simp [State.claims]

/-! ## Dismissals (R131) -/

theorem binRec?_dismissInto (h : s.binRec? b = some r) (e : OrderNo) (p : Position) :
    (s.dismissInto e p b).binRec? b = some { r with holder := some e, place := .stationOut 4 } := by
  have hheld : (s.placeOrder e (s.homewardStow b)).binRec? b = some { r with holder := some e } :=
    binRec?_placeOrder_self e (s.homewardStow b) h
  exact binRec?_setPlace_self (s := (s.placeOrder e (s.homewardStow b)).setStationOut returnStation (some b)) hheld
    (.stationOut returnStation)

theorem mayDismiss_of_free (hfree : (s.stationState 4).isFireHeld = false) (hout : s.stationOut 4 = none) :
    s.mayDismiss = true := by
  rw [State.mayDismiss, State.returnState, returnStation, hfree, hout]
  rfl

section
variable (hp : s.position p = .fullWaiting b) (hfree : (s.stationState 4).isFireHeld = false) (hout : s.stationOut 4 = none)
include hp hfree hout

theorem tryDismissal_made (he : s.freeEntry? = some e) : s.tryDismissal p = s.wakeByNeed.dismissInto e p b := by
  simp only [State.tryDismissal, hp, mayDismiss_of_free hfree hout, he, if_true]

theorem tryDismissal_claimed (he : s.freeEntry? = none) :
    s.tryDismissal p = if s.dismissalMark p then s else s.fileClaim (.dismissal p) := by
  simp only [State.tryDismissal, hp, mayDismiss_of_free hfree hout, he, if_true]

theorem tryDismissal_claimed_reads (he : s.freeEntry? = none) : (s.tryDismissal p).dismissalMark p = true
    ∧ (s.tryDismissal p).position p = .fullWaiting b ∧ (s.tryDismissal p).ou.quiet = s.ou.quiet := by
  rw [tryDismissal_claimed hp hfree hout he]
  split
  · exact ⟨‹_›, hp, rfl⟩
  · exact ⟨claims_fileClaim s (.dismissal p), by cases p <;> exact hp, rfl⟩

end

theorem tryDismissal_waits
    (h : (∀ b, s.position p ≠ .fullWaiting b) ∨ (s.stationState 4).isFireHeld = true ∨ s.stationOut 4 ≠ none) :
    s.tryDismissal p = s := by
  unfold State.tryDismissal
  split
  · rename_i b hb
    have hmay : s.mayDismiss = false := by
      obtain h | h | h := h
      · exact absurd hb (h b)
      · simp [State.mayDismiss, State.returnState, returnStation, h]
      · exact Bool.and_eq_false_iff.2 (.inr (Option.isNone_eq_false_iff.2 (Option.isSome_iff_ne_none.2 h)))
    rw [if_neg (by simp [hmay])]
  · rfl

/-! ## Fetch claims (R129) -/

/-- Whether a position asks for a bin: EMPTY with its mark clear, or WANTING with a member in its pool. -/
def State.NeedsBin (s : State) (p : Position) : Prop :=
  (s.position p = .empty ∧ s.fetchMark p = false) ∨ (s.position p = .wanting ∧ s.poolFirst? p ≠ none)

theorem tryFetch_of_needsBin (hopen : s.stationState 4 = .opened) (h : s.NeedsBin p) : s.tryFetch p = s.takeFetchClaim p := by
  have hreturn : s.returnOpen = true := decide_eq_true hopen
  obtain ⟨hp, hmark⟩ | ⟨hp, hpool⟩ := h
  · simp only [State.tryFetch, hreturn, hp, hmark, if_true, Bool.false_eq_true, if_false]
  · simp only [State.tryFetch, hreturn, hp, Option.isSome_iff_ne_none.2 hpool, if_true]

theorem tryFetch_waits (h : s.stationState 4 ≠ .opened ∨ (s.position p = .empty ∧ s.fetchMark p = true)
    ∨ (s.position p = .wanting ∧ s.poolFirst? p = none) ∨ (∃ e, s.position p = .arriving e)
    ∨ (∃ b, s.position p = .presented b) ∨ (∃ b, s.position p = .fullWaiting b)) : s.tryFetch p = s := by
  unfold State.tryFetch
  split
  · rename_i hreturn
    obtain h | ⟨hp, hmark⟩ | ⟨hp, hpool⟩ | ⟨e, hp⟩ | ⟨b, hp⟩ | ⟨b, hp⟩ := h
    · exact absurd (of_decide_eq_true hreturn) h
    · simp only [hp, hmark, if_true]
    · simp only [hp, hpool, Option.isSome_none, Bool.false_eq_true, if_false]
    all_goals simp only [hp]
  · rfl

theorem takeFetchClaim_calls (he : s.freeEntry? = some e) (hb : s.poolFirst? p = some b) :
    s.takeFetchClaim p = s.wakeByNeed.callBin e p b := by
  simp only [State.takeFetchClaim, freeEntry?_wakeByNeed, poolFirst?_wakeByNeed, he, hb]

theorem takeFetchClaim_wants (he : s.freeEntry?.isSome = true) (hb : s.poolFirst? p = none) :
    s.takeFetchClaim p = s.wakeByNeed.enterWanting p := by
  obtain ⟨e, he⟩ := Option.isSome_iff_exists.1 he
  simp only [State.takeFetchClaim, freeEntry?_wakeByNeed, poolFirst?_wakeByNeed, he, hb]

theorem takeFetchClaim_files (he : s.freeEntry? = none) :
    s.takeFetchClaim p = (s.wakeByNeed.setPosition p .empty).fileClaim (.fetch p) := by
  simp only [State.takeFetchClaim, freeEntry?_wakeByNeed, he]

/-- A fetch claim wakes the wing whatever becomes of it (R67; log entry 11). -/
theorem takeFetchClaim_wakes (h : s.ou.quiet = .quiet) :
    (s.takeFetchClaim p).ou.quiet = .active ∧ (s.takeFetchClaim p).pendingCause .woken = true := by
  obtain ⟨hactive, hwoken⟩ := wakeByNeed_wakes h
  cases he : s.freeEntry? with
  | none => rw [takeFetchClaim_files he]; exact ⟨hactive, hwoken⟩
  | some e =>
    cases hb : s.poolFirst? p with
    | none =>
      rw [takeFetchClaim_wants (by rw [he]; rfl) hb]
      exact ⟨hactive, latchSet_latch (s := (s.wakeByNeed.setPosition p .wanting).withdrawClaims _) .intakeExhausted hwoken⟩
    | some b =>
      rw [takeFetchClaim_calls he hb]
      exact ⟨(quiet_callBin e p b).trans hactive, latchSet_of_au (au_callBin e p b) hwoken⟩

theorem callBin_reads (hb : s.binRec? b = some r) (e : OrderNo) (p : Position) :
    (s.callBin e p b).binRec? b = some { r with holder := some e }
      ∧ (s.callBin e p b).queue (s.homeAisle b) =
        queueInsert (s.callBin e p b).priorityOf e (s.queue (s.homeAisle b)) := by
  obtain ⟨-, hholder, hqueue⟩ := placeOrder_queued (e := e) (q := s.callingFetch p b) rfl hb
  exact ⟨hholder, hqueue⟩

/-- Settles O44: each look at a position by what stands there and by the free entry, then the pools. -/
theorem positionsCallAndDismissBins : Obligations.PositionsCallAndDismissBins := by
  refine fun s p => ⟨fun b hp hfree hout => ⟨fun e he => ?made, fun he => tryDismissal_claimed_reads hp hfree hout he⟩,
    tryDismissal_waits, fun hopen hneed => ?fetch, tryFetch_waits, fun b r => inPool_iff s p b r,
    fun hsorted => ⟨fun b => poolFirst?_eq_some hsorted, poolFirst?_eq_none hsorted⟩⟩
  case made =>
    obtain ⟨hwakes, -⟩ := woken_of_wakeByNeed (s := s) (quiet_dismissInto e p b) (au_dismissInto e p b)
    have horder := order?_dismissInto (s := s.wakeByNeed) e p b
    rw [State.homewardStow, homeAisle_wakeByNeed] at horder
    rw [tryDismissal_made hp hfree hout he]
    exact ⟨horder, fun r hr => binRec?_dismissInto ((binRec?_wakeByNeed s b).trans hr) e p, stationOut_dismissInto e p b,
      position_dismissInto e p b, dismissalMark_dismissInto e p b, hwakes⟩
  case fetch =>
    rw [tryFetch_of_needsBin hopen hneed]
    refine ⟨takeFetchClaim_wakes, fun e b r he hb hr => ?_, fun he hb => ?_, fun he => ?_⟩
    · have horder := order?_callBin (s := s.wakeByNeed) e p b
      obtain ⟨hrec, hqueue⟩ := callBin_reads ((binRec?_wakeByNeed s b).trans hr) e p
      rw [State.callingFetch, homeAisle_wakeByNeed] at horder
      rw [homeAisle_wakeByNeed, queue_wakeByNeed] at hqueue
      rw [takeFetchClaim_calls he hb]
      exact ⟨horder, hrec, position_callBin e p b, fetchMark_callBin e p b, hqueue⟩
    · rw [takeFetchClaim_wants he hb]
      exact ⟨position_enterWanting p, fetchMark_enterWanting p, enterWanting_latches p, orders_wakeByNeed s⟩
    · rw [takeFetchClaim_files he]
      exact ⟨by cases p <;> rfl, claims_fileClaim _ (.fetch p), orders_wakeByNeed s⟩

end Sys2Proof.Machine
end

section
/-! Walks over the shuttles of a zone: what one shuttle's own turn leaves, where the turns of the others leave it alone. -/
namespace Sys2Proof.Machine

/-! ## One member's turn in a walk -/

/-- A law that a member's own turn brings about holds after the walk, when the turns before leave what the turn needs and the
turns after leave the law. -/
theorem foldl_turn {ι : Type} {P Q : State → Prop} {f : State → ι → State} {i : ι}
    (hbefore : ∀ s j, j ≠ i → P s → P (f s j)) (hturn : ∀ s, P s → Q (f s i)) (hafter : ∀ s j, j ≠ i → Q s → Q (f s j))
    {l : List ι} (hl : l.Nodup) (hi : i ∈ l) {s : State} (hs : P s) : Q (l.foldl f s) := by
  induction l generalizing s with
  | nil => exact absurd hi List.not_mem_nil
  | cons j l ih =>
    obtain ⟨hj, hl⟩ := List.nodup_cons.1 hl
    by_cases hji : j = i
    · subst hji
      exact List.foldlRecOn l f (hturn s hs) fun u hu k hk => hafter u k (fun h => hj (h ▸ hk)) hu
    · exact ih hl (List.mem_of_ne_of_mem (Ne.symm hji) hi) (hbefore s j hji hs)

/-- What is read of a member alone reads after the walk as after its own turn. -/
theorem foldl_reads_turn {ι β : Type} (view : State → β) {f : State → ι → State} {i : ι}
    (hframe : ∀ s j, j ≠ i → view (f s j) = view s) {l : List ι} (hl : l.Nodup) (hi : i ∈ l) (s : State) :
    ∃ u, view u = view s ∧ view (l.foldl f s) = view (f u i) :=
  foldl_turn (P := fun u => view u = view s) (Q := fun t => ∃ u, view u = view s ∧ view t = view (f u i))
    (fun u j hj hu => (hframe u j hj).trans hu) (fun u hu => ⟨u, hu, rfl⟩)
    (fun t j hj ⟨u, hu, ht⟩ => ⟨u, hu, (hframe t j hj).trans ht⟩) hl hi rfl

/-- A walk whose every turn leaves a reading leaves it. -/
theorem foldl_reads {ι β : Type} (view : State → β) {f : State → ι → State} (hframe : ∀ s j, view (f s j) = view s)
    (l : List ι) (s : State) : view (l.foldl f s) = view s :=
  foldl_keeps (P := fun u => view u = view s) (fun u j hu => (hframe u j).trans hu) l rfl

/-! ## The shuttles of a zone (R3) -/

theorem nodup_aisles : aisles.Nodup := by decide

theorem shuttlesOf_eq_filter (z : ZoneNo) : shuttlesOf z = aisles.filter fun a => decide (zoneOf a = z) := rfl

theorem nodup_shuttlesOf (z : ZoneNo) : (shuttlesOf z).Nodup := nodup_aisles.filter _

theorem mem_shuttlesOf {a : Aisle} {z : ZoneNo} : a ∈ shuttlesOf z ↔ zoneOf a = z := by
  simp [shuttlesOf_eq_filter, mem_aisles]

/-- No shuttle belongs to the front hall (08 A). -/
theorem zoneOf_ne_frontHall (a : Aisle) : zoneOf a ≠ frontHall := by revert a; decide

theorem ne_frontHall_of_zoneOf {a : Aisle} {z : ZoneNo} (h : zoneOf a = z) : z ≠ frontHall := h ▸ zoneOf_ne_frontHall a

variable {s : State} {a b : Aisle} {z : ZoneNo}

/-! ## A shuttle's own part of the link -/

/-- What the work of an aisle reads of its own shuttle: the record, the message that waits, and whether the exchange in progress
carries its motion command. -/
def State.ownPart (s : State) (a : Aisle) : Shuttle × Option Message × Bool :=
  (s.shuttle a, s.slot a, s.commandExchange a)

theorem ownPart_eq_iff {t : State} : t.ownPart a = s.ownPart a ↔
    t.shuttle a = s.shuttle a ∧ t.slot a = s.slot a ∧ t.commandExchange a = s.commandExchange a := by
  simp [State.ownPart]

theorem commandExchange_iff : s.commandExchange a = true ↔
    ∃ x m, s.alc.exchange = some x ∧ x.kind = .command m ∧ x.shuttle = a := by
  unfold State.commandExchange
  split
  · rename_i b m use sent hx
    simp [hx]
  · rename_i hno
    constructor
    · intro h
      cases h
    · rintro ⟨⟨b, k, use, sent⟩, m, hx, rfl, -⟩
      exact absurd hx (hno b m use sent)

/-! ## Writing a shuttle's record and its slot -/

theorem setSlot_slot (s : State) (a : Aisle) : s.setSlot a (s.slot a) = s := by
  simp [State.setSlot, State.slot]

theorem setSlot_setSlot (s : State) (a : Aisle) (m n : Option Message) : (s.setSlot a m).setSlot a n = s.setSlot a n := by
  simp [State.setSlot]

theorem slot_setSlot_self (s : State) (a : Aisle) (m : Option Message) : (s.setSlot a m).slot a = m :=
  (slot_setSlot s a a m).trans (if_pos rfl)

theorem changeShuttle_eq (s : State) (a : Aisle) (f : Shuttle → Shuttle) :
    s.changeShuttle a f = s.putShuttle a (f (s.shuttle a)) := rfl

/-! ## Zones -/

theorem zone_of_fiu {t : State} (h : t.fiu = s.fiu) (z : ZoneNo) : t.zone z = s.zone z := by rw [State.zone, h, State.zone]

/-- The other zones keep their records when one zone's state is written. -/
theorem zone_setZoneState_ne {y : ZoneNo} (h : y ≠ z) (st : ZoneState) : (s.setZoneState z st).zone y = s.zone y :=
  (zone_setZoneState s z y st).trans (if_neg (Ne.symm h))

theorem zone_setZoneState_self (s : State) (z : ZoneNo) (st : ZoneState) :
    (s.setZoneState z st).zone z = { s.zone z with state := st, clr := decide (st = .sealed) } :=
  (zone_setZoneState s z z st).trans (if_pos rfl)

end Sys2Proof.Machine
end

section
/-! An aisle zone in ALARM: what one shuttle's turn does to its record, its message, its order and the exchange in progress (R57,
R84, R85, R144). -/
namespace Sys2Proof.Machine

variable {s : State} {a b : Aisle} {z : ZoneNo} {o : OrderNo} {r : Order}

/-! ## Withdrawals (R85) -/

/-- A withdrawn message leaves the slot empty; the request that waited on it ends in the window alone. -/
theorem withdrawForAlarm_frame (s : State) (a : Aisle) : ∃ w, s.withdrawForAlarm a = { s.setSlot a none with win := w } := by
  unfold State.withdrawForAlarm
  cases h : s.slot a with
  | none => exact ⟨s.win, by rw [setSlot_none h]⟩
  | some m => cases m <;> exact ⟨_, rfl⟩

theorem win_withdrawForAlarm_resume (h : s.slot a = some .resume) :
    (s.withdrawForAlarm a).win = (s.endRequest .wrongState {}).win := by
  simp only [State.withdrawForAlarm, h]
  rfl

theorem win_withdrawForAlarm_hostRevival (h : s.slot a = some .hostRevival) :
    (s.withdrawForAlarm a).win = (s.endRequest .zoneLocked {}).win := by
  simp only [State.withdrawForAlarm, h]
  rfl

theorem win_withdrawForAlarm_other (hresume : s.slot a ≠ some .resume) (hhost : s.slot a ≠ some .hostRevival) :
    (s.withdrawForAlarm a).win = s.win := by
  unfold State.withdrawForAlarm
  cases h : s.slot a with
  | none => rfl
  | some m =>
    cases m with
    | resume => exact absurd h hresume
    | hostRevival => exact absurd h hhost
    | command m fire => rfl
    | revival => rfl

/-- The exchange in progress, limited for a shuttle's alarm: a motion command's and a busy poll's result stands in full (R144; log
entry 16). -/
def Exchange.alarmed (a : Aisle) (x : Exchange) : Exchange :=
  match x.kind with
  | .command _ => x
  | .busyPoll => x
  | _ => x.limit a .silenceAndPosition

theorem limitForAlarm_eq (s : State) (a : Aisle) :
    s.limitForAlarm a = { s with alc.exchange := s.alc.exchange.map (Exchange.alarmed a) } := by
  obtain hx | ⟨⟨b, k, use, sent⟩, hx⟩ := Option.eq_none_or_eq_some s.alc.exchange
  · simp only [State.limitForAlarm, State.limitExchange, hx]
    rfl
  · cases k <;> simp only [State.limitForAlarm, State.limitExchange, hx, Option.map_some, Exchange.alarmed] <;> rw [← hx]

@[simp] theorem kind_alarmed (a : Aisle) (x : Exchange) : (x.alarmed a).kind = x.kind := by
  unfold Exchange.alarmed Exchange.limit
  split
  · rfl
  · rfl
  · split <;> rfl

@[simp] theorem shuttle_alarmed (a : Aisle) (x : Exchange) : (x.alarmed a).shuttle = x.shuttle := by
  unfold Exchange.alarmed Exchange.limit
  split
  · rfl
  · rfl
  · split <;> rfl

theorem alarmed_of_ne {x : Exchange} (h : x.shuttle ≠ a) : x.alarmed a = x := by
  unfold Exchange.alarmed
  split
  · rfl
  · rfl
  · exact if_neg h

/-- What is made of the result of each exchange with the alarmed shuttle (R58, R89, R144; log entries 16 and 25). -/
theorem alarmed_of_eq {x : Exchange} (h : x.shuttle = a) : x.alarmed a = { x with use := match x.kind, x.use with
    | .command _, u => u
    | .busyPoll, u => u
    | _, .discard => .discard
    | _, _ => .silenceAndPosition } := by
  obtain ⟨b, k, use, sent⟩ := x
  cases h
  cases k <;> cases use <;> simp [Exchange.alarmed, Exchange.limit]

/-- The exchange in progress carries the same shuttle's command, whatever is made of its result. -/
theorem commandExchange_alarmed {t : State} (h : t.alc.exchange = s.alc.exchange.map (Exchange.alarmed b)) (a : Aisle) :
    t.commandExchange a = s.commandExchange a := by
  rw [Bool.eq_iff_iff, commandExchange_iff, commandExchange_iff, h]
  cases s.alc.exchange <;> simp

/-! ## Fire PARKs (R84, R144) -/

/-- The record of a shuttle that is given its fire PARK (R84). -/
def Shuttle.fireParking (q : Shuttle) : Shuttle :=
  { q with state := .busy, command := some ⟨.park, .sent, true⟩, deadline := none }

/-- What waits in the slot once a quiet PARK is taken as the fire PARK: that PARK, if it has not been sent (R84). -/
def parkAsFire : Option Message → Option Message
  | some (.command .park _) => some (.command .park true)
  | m => m

theorem placeFirePark_eq (s : State) (a : Aisle) : s.placeFirePark a =
    (s.putShuttle a (s.shuttle a).fireParking).setSlot a (some (.command .park true)) := by
  rw [State.placeFirePark, State.giveCommand, changeShuttle_eq, changeShuttle_eq, shuttle_putShuttle_self,
    putShuttle_putShuttle]
  rfl

theorem takeQuietPark_eq (s : State) (a : Aisle) (c : InFlight) : s.takeQuietPark a c =
    (s.putShuttle a { s.shuttle a with command := some { c with fire := true }, deadline := none }).setSlot a
      (parkAsFire (s.slot a)) := by
  have hslot (q : Shuttle) : (s.putShuttle a q).slot a = s.slot a := rfl
  have hself (q : Shuttle) : (s.putShuttle a q).setSlot a (s.slot a) = s.putShuttle a q := setSlot_slot (s.putShuttle a q) a
  simp only [State.takeQuietPark, changeShuttle_eq, hslot]
  split
  · rename_i f hm
    rw [hm]
    rfl
  · rename_i hno
    have hstays : parkAsFire (s.slot a) = s.slot a := by
      unfold parkAsFire
      split
      · rename_i f hm
        exact absurd hm (hno f)
      · rfl
    rw [hstays, hself]

/-- A shuttle whose command may be replaced: it has none, or one that is no PARK and not in an exchange (R84, R85). -/
def State.Replaceable (s : State) (a : Aisle) : Prop :=
  ∀ c, (s.shuttle a).command = some c → c.motion ≠ .park ∧ s.commandExchange a = false

theorem parkForFire_replaces (h : s.Replaceable a) : s.parkForFire a = (s.withdrawForAlarm a).placeFirePark a := by
  cases hc : (s.shuttle a).command with
  | none => simp only [State.parkForFire, hc]
  | some c =>
    obtain ⟨hm, hx⟩ := h c hc
    simp only [State.parkForFire, hc, if_neg hm, hx, Bool.false_eq_true, if_false]

section
variable {c : InFlight} (hc : (s.shuttle a).command = some c)
include hc

theorem parkForFire_park (hm : c.motion = .park) : s.parkForFire a = s.takeQuietPark a c := by
  simp only [State.parkForFire, hc, if_pos hm]

theorem parkForFire_exchange (hm : c.motion ≠ .park) (hx : s.commandExchange a = true) : s.parkForFire a = s := by
  simp only [State.parkForFire, hc, if_neg hm, hx, if_true]

end

theorem placeFirePark_withdrawn (s : State) (a : Aisle) : (s.withdrawForAlarm a).placeFirePark a =
    { (s.putShuttle a (s.shuttle a).fireParking).setSlot a (some (.command .park true)) with
      win := (s.withdrawForAlarm a).win } := by
  obtain ⟨w, hw⟩ := withdrawForAlarm_frame s a
  rw [placeFirePark_eq, hw]
  exact congrArg (fun u : State => { u with win := w }) (setSlot_setSlot (s.putShuttle a (s.shuttle a).fireParking) a none _)

theorem replaceable_or (s : State) (a : Aisle) : s.Replaceable a
    ∨ ∃ c, (s.shuttle a).command = some c ∧ (c.motion = .park ∨ c.motion ≠ .park ∧ s.commandExchange a = true) := by
  rw [State.Replaceable, or_iff_not_imp_left]
  simp only [not_forall]
  rintro ⟨c, hc, hno⟩
  by_cases hm : c.motion = .park
  · exact ⟨c, hc, .inl hm⟩
  · exact ⟨c, hc, .inr ⟨hm, by simpa [hm] using hno⟩⟩

/-- Parking for fire writes the shuttle's record and its slot, and the window of a request that is refused. -/
theorem parkForFire_frame (s : State) (a : Aisle) :
    ∃ q m w, s.parkForFire a = { (s.putShuttle a q).setSlot a m with win := w } := by
  obtain h | ⟨c, hc, hm | ⟨hm, hx⟩⟩ := replaceable_or s a
  · exact ⟨_, _, _, (parkForFire_replaces h).trans (placeFirePark_withdrawn s a)⟩
  · exact ⟨_, _, s.win, (parkForFire_park hc hm).trans (takeQuietPark_eq s a c)⟩
  · refine ⟨s.shuttle a, s.slot a, s.win, (parkForFire_exchange hc hm hx).trans ?_⟩
    rw [putShuttle_shuttle, setSlot_slot]

/-! ## One shuttle's turn (R144) -/

/-- What every shuttle of the zone undergoes first: its order is halted, its revival's wait ends, and the exchange in progress is
limited (R57, R144). -/
def State.haltForAlarm (a : Aisle) (s : State) : State :=
  ((s.haltCurrent a .fire).changeShuttle a fun q => { q with revivalRetry := none }).limitForAlarm a

theorem haltForAlarm_eq (s : State) (a : Aisle) : s.haltForAlarm a =
    { s.putShuttle a { s.shuttle a with revivalRetry := none } with
      ou.orders := (s.haltCurrent a .fire).ou.orders
      alc.exchange := s.alc.exchange.map (Exchange.alarmed a) } := by
  obtain ⟨v, hv⟩ := haltCurrent_frame (s := s) a .fire
  rw [State.haltForAlarm, limitForAlarm_eq, hv]
  rfl

theorem shuttle_haltForAlarm (s : State) (a : Aisle) :
    (s.haltForAlarm a).shuttle a = { s.shuttle a with revivalRetry := none } := by
  rw [haltForAlarm_eq]
  exact shuttle_putShuttle_self s a _

theorem slot_haltForAlarm (s : State) (a b : Aisle) : (s.haltForAlarm a).slot b = s.slot b := by
  rw [haltForAlarm_eq]
  rfl

theorem win_haltForAlarm (s : State) (a : Aisle) : (s.haltForAlarm a).win = s.win := by
  rw [haltForAlarm_eq]
  rfl

theorem commandExchange_haltForAlarm (s : State) (a b : Aisle) :
    (s.haltForAlarm a).commandExchange b = s.commandExchange b :=
  commandExchange_alarmed (b := a) (by rw [haltForAlarm_eq]) b

theorem replaceable_haltForAlarm : (s.haltForAlarm a).Replaceable a ↔ s.Replaceable a := by
  simp only [State.Replaceable, shuttle_haltForAlarm, commandExchange_haltForAlarm]

/-- Whether a shuttle moves or may be sent to move: IDLE or BUSY. -/
def State.Moving (s : State) (a : Aisle) : Prop := (s.shuttle a).state = .idle ∨ (s.shuttle a).state = .busy

theorem state_haltForAlarm (s : State) (a : Aisle) : ((s.haltForAlarm a).shuttle a).state = (s.shuttle a).state := by
  rw [shuttle_haltForAlarm]

theorem alarmShuttle_moving (h : s.Moving a) : s.alarmShuttle a = (s.haltForAlarm a).parkForFire a := by
  have hstate := state_haltForAlarm s a
  simp only [State.haltForAlarm] at hstate ⊢
  obtain h | h := h
  · simp only [State.alarmShuttle, hstate, h]
  · simp only [State.alarmShuttle, hstate, h]

theorem alarmShuttle_resting (h : ¬ s.Moving a) : s.alarmShuttle a = (s.haltForAlarm a).withdrawForAlarm a := by
  have hstate := state_haltForAlarm s a
  simp only [State.haltForAlarm] at hstate ⊢
  cases hst : (s.shuttle a).state with
  | idle => exact absurd (.inl hst) h
  | busy => exact absurd (.inr hst) h
  | _ => simp only [State.alarmShuttle, hstate, hst]

/-- All that a shuttle's turn changes: its record, its slot, the orders by the halt, the exchange in progress, and the window of a
request that is refused. -/
theorem alarmShuttle_frame (s : State) (a : Aisle) : ∃ q m w, s.alarmShuttle a = { (s.putShuttle a q).setSlot a m with
    ou.orders := (s.haltCurrent a .fire).ou.orders
    alc.exchange := s.alc.exchange.map (Exchange.alarmed a)
    win := w } := by
  have hwrite (q : Shuttle) (m : Option Message) (w : Window) :
      { ((s.haltForAlarm a).putShuttle a q).setSlot a m with win := w } = { (s.putShuttle a q).setSlot a m with
        ou.orders := (s.haltCurrent a .fire).ou.orders
        alc.exchange := s.alc.exchange.map (Exchange.alarmed a)
        win := w } := by
    rw [haltForAlarm_eq]
    simp [State.putShuttle, State.setSlot]
  by_cases h : s.Moving a
  · obtain ⟨q, m, w, hw⟩ := parkForFire_frame (s.haltForAlarm a) a
    exact ⟨q, m, w, ((alarmShuttle_moving h).trans hw).trans (hwrite q m w)⟩
  · obtain ⟨w, hw⟩ := withdrawForAlarm_frame (s.haltForAlarm a) a
    refine ⟨(s.haltForAlarm a).shuttle a, none, w, ((alarmShuttle_resting h).trans hw).trans (.trans ?_ (hwrite _ none w))⟩
    rw [putShuttle_shuttle]

/-- The others' own parts are left alone. -/
theorem ownPart_alarmShuttle_ne (s : State) (h : b ≠ a) : (s.alarmShuttle b).ownPart a = s.ownPart a := by
  obtain ⟨q, m, w, hw⟩ := alarmShuttle_frame s b
  refine ownPart_eq_iff.2 ⟨?_, ?_, commandExchange_alarmed (b := b) (by rw [hw]) a⟩
  · rw [hw]
    exact (shuttle_putShuttle s b a q).trans (if_neg h)
  · rw [hw]
    exact (slot_setSlot (s.putShuttle b q) b a m).trans (if_neg h)

theorem exchange_alarmShuttle (s : State) (a : Aisle) :
    (s.alarmShuttle a).alc.exchange = s.alc.exchange.map (Exchange.alarmed a) := by
  obtain ⟨q, m, w, hw⟩ := alarmShuttle_frame s a
  rw [hw]

theorem order?_alarmShuttle (s : State) (a : Aisle) (o : OrderNo) :
    (s.alarmShuttle a).order? o = (s.haltCurrent a .fire).order? o := by
  obtain ⟨q, m, w, hw⟩ := alarmShuttle_frame s a
  rw [hw]
  rfl

/-- What no shuttle's turn touches: the zones, the attention block, the tables, the claims and the lane. -/
theorem beyond_alarmShuttle (s : State) (a : Aisle) :
    ((s.alarmShuttle a).fiu, (s.alarmShuttle a).au, (s.alarmShuttle a).tab, (s.alarmShuttle a).ou.claims) =
      (s.fiu, s.au, s.tab, s.ou.claims) := by
  obtain ⟨q, m, w, hw⟩ := alarmShuttle_frame s a
  rw [hw]
  rfl

/-! ### Its record and its message -/

theorem alarmShuttle_parks (h : s.Moving a) (hc : s.Replaceable a) :
    (s.alarmShuttle a).shuttle a = Shuttle.fireParking { s.shuttle a with revivalRetry := none }
      ∧ (s.alarmShuttle a).slot a = some (.command .park true) := by
  rw [alarmShuttle_moving h, parkForFire_replaces (replaceable_haltForAlarm.2 hc), placeFirePark_withdrawn,
    shuttle_haltForAlarm]
  exact ⟨shuttle_putShuttle_self _ a _, slot_setSlot_self _ a _⟩

theorem alarmShuttle_takesPark (h : s.Moving a) {c : InFlight} (hc : (s.shuttle a).command = some c) (hm : c.motion = .park) :
    (s.alarmShuttle a).shuttle a =
        { s.shuttle a with command := some { c with fire := true }, deadline := none, revivalRetry := none }
      ∧ (s.alarmShuttle a).slot a = parkAsFire (s.slot a) := by
  have hc' : ((s.haltForAlarm a).shuttle a).command = some c := by rw [shuttle_haltForAlarm, hc]
  rw [alarmShuttle_moving h, parkForFire_park hc' hm, takeQuietPark_eq, shuttle_haltForAlarm, slot_haltForAlarm]
  exact ⟨shuttle_putShuttle_self _ a _, slot_setSlot_self _ a _⟩

theorem alarmShuttle_leaves (h : s.Moving a) {c : InFlight} (hc : (s.shuttle a).command = some c) (hm : c.motion ≠ .park)
    (hx : s.commandExchange a = true) : (s.alarmShuttle a).shuttle a = { s.shuttle a with revivalRetry := none }
      ∧ (s.alarmShuttle a).slot a = s.slot a := by
  have hc' : ((s.haltForAlarm a).shuttle a).command = some c := by rw [shuttle_haltForAlarm, hc]
  rw [alarmShuttle_moving h, parkForFire_exchange hc' hm ((commandExchange_haltForAlarm s a a).trans hx)]
  exact ⟨shuttle_haltForAlarm s a, slot_haltForAlarm s a a⟩

theorem alarmShuttle_withdraws (h : ¬ s.Moving a) : (s.alarmShuttle a).shuttle a = { s.shuttle a with revivalRetry := none }
      ∧ (s.alarmShuttle a).slot a = none := by
  obtain ⟨w, hw⟩ := withdrawForAlarm_frame (s.haltForAlarm a) a
  rw [alarmShuttle_resting h, hw]
  exact ⟨shuttle_haltForAlarm s a, slot_setSlot_self _ a _⟩

/-! ### The window -/

/-- A shuttle at rest, or one whose command is replaced, has its message withdrawn (R85). -/
theorem win_alarmShuttle (h : ¬ s.Moving a ∨ s.Replaceable a) :
    (s.alarmShuttle a).win = ((s.haltForAlarm a).withdrawForAlarm a).win := by
  by_cases hmoving : s.Moving a
  · have hc := h.resolve_left (not_not_intro hmoving)
    rw [alarmShuttle_moving hmoving, parkForFire_replaces (replaceable_haltForAlarm.2 hc), placeFirePark_withdrawn]
  · rw [alarmShuttle_resting hmoving]

theorem win_parkForFire_other (hresume : s.slot a ≠ some .resume) (hhost : s.slot a ≠ some .hostRevival) :
    (s.parkForFire a).win = s.win := by
  obtain h | ⟨c, hc, hm | ⟨hm, hx⟩⟩ := replaceable_or s a
  · rw [parkForFire_replaces h, placeFirePark_withdrawn]
    exact win_withdrawForAlarm_other hresume hhost
  · rw [parkForFire_park hc hm, takeQuietPark_eq]
    rfl
  · rw [parkForFire_exchange hc hm hx]

/-- A request waits on the message of a shuttle: RESUME ORDER or REVIVE SHUTTLE (R58, R89). -/
def State.Awaited (s : State) (a : Aisle) : Prop := s.slot a = some .resume ∨ s.slot a = some .hostRevival

theorem win_alarmShuttle_other (h : ¬ s.Awaited a) : (s.alarmShuttle a).win = s.win := by
  obtain ⟨hresume, hhost⟩ := not_or.1 h
  rw [← slot_haltForAlarm s a a] at hresume hhost
  by_cases hmoving : s.Moving a
  · rw [alarmShuttle_moving hmoving, win_parkForFire_other hresume hhost, win_haltForAlarm]
  · rw [alarmShuttle_resting hmoving, win_withdrawForAlarm_other hresume hhost, win_haltForAlarm]

theorem parkAsFire_cases (m : Option Message) : parkAsFire m = m ∨ parkAsFire m = some (.command .park true) := by
  unfold parkAsFire
  split
  · exact .inr rfl
  · exact .inl rfl

/-- A shuttle's turn leaves its message, withdraws it, or leaves the fire PARK in its place. -/
theorem slot_alarmShuttle_cases (s : State) (a : Aisle) : (s.alarmShuttle a).slot a = s.slot a
    ∨ (s.alarmShuttle a).slot a = none ∨ (s.alarmShuttle a).slot a = some (.command .park true) := by
  by_cases h : s.Moving a
  · obtain hc | ⟨c, hc, hm | ⟨hm, hx⟩⟩ := replaceable_or s a
    · exact .inr (.inr (alarmShuttle_parks h hc).2)
    · rw [(alarmShuttle_takesPark h hc hm).2]
      exact (parkAsFire_cases _).imp_right .inr
    · exact .inl (alarmShuttle_leaves h hc hm hx).2
  · exact .inr (.inl (alarmShuttle_withdraws h).2)

theorem not_awaited_alarmShuttle (h : ¬ s.Awaited a) : ¬ (s.alarmShuttle a).Awaited a := by
  unfold State.Awaited at h ⊢
  obtain hm | hm | hm := slot_alarmShuttle_cases s a
  · rwa [hm]
  · simp [hm]
  · simp [hm]

/-! ### The order that it halts (R57) -/

/-- A HALTED order stays as it is, whichever shuttle is halted next. -/
theorem order?_haltCurrent_halted {k : Restart} (h : s.order? o = some r) (hst : r.stage = .halted k) (b : Aisle)
    (reason : HaltReason) : (s.haltCurrent b reason).order? o = some r := by
  obtain hstays | ⟨q, r', st, m, hc, hst', hhalted⟩ := haltCurrent_cases (s := s) b reason
  · rw [hstays, h]
  · have hq : q ≠ o := by
      rintro rfl
      obtain rfl : r' = r := Option.some.inj ((currentOrder?_eq_some.1 hc).2.symm.trans h)
      rw [hst] at hst'
      cases hst'
    rw [hhalted, order?_putOrder, if_neg hq, h]

/-- A running order stays as it is or is halted: its entry does not tell by which shuttle. -/
theorem order?_haltCurrent_run {st : RunStage} {m : Motion} (h : s.order? o = some r) (hst : r.stage = .run st)
    (hm : s.stageCommand? r st = some m) (b : Aisle) (reason : HaltReason) :
    (s.haltCurrent b reason).order? o = some r ∨ (s.haltCurrent b reason).order? o = some (r.haltedIn st m reason) := by
  obtain hstays | ⟨q, r', st', m', hc, -, hhalted⟩ := haltCurrent_cases (s := s) b reason
  · exact .inl (by rw [hstays, h])
  · by_cases hq : q = o
    · subst hq
      obtain rfl : r' = r := Option.some.inj ((currentOrder?_eq_some.1 hc).2.symm.trans h)
      exact .inr (by rw [haltCurrent_of_run hc reason hst hm, order?_putOrder, if_pos rfl])
    · exact .inl (by rw [hhalted, order?_putOrder, if_neg hq, h])

end Sys2Proof.Machine
end

section
/-! The alarm of an aisle zone, read of each of its shuttles when the zone's walk is over (R143, R144). -/
namespace Sys2Proof.Machine

variable {s : State} {a : Aisle} {z : ZoneNo} {o : OrderNo} {r : Order}

/-! ## The walk -/

/-- A zone's record in ALARM, with the latch: what entering ALARM does in every zone (R142, R143). -/
def State.zoneAlarmed (z : ZoneNo) (s : State) : State :=
  (s.setZoneState z (.alarm s.tab.deadlines[z])).latch .zoneAlarm

theorem enterAlarm_aisles (h : z ≠ frontHall) : s.enterAlarm z = (shuttlesOf z).foldl (fun s a => s.alarmShuttle a)
    ((s.zoneAlarmed z).withdrawClaims ((shuttlesOf z).map (·.val))) := if_neg h

theorem enterAlarm_hall (s : State) : s.enterAlarm frontHall = (s.zoneAlarmed frontHall).alarmHall := by
  simp only [State.enterAlarm, State.zoneAlarmed, if_true]

/-- The walk leaves the zones, the attention block, the tables and the claims. -/
theorem beyond_enterAlarm (h : z ≠ frontHall) :
    (s.enterAlarm z).fiu = (s.zoneAlarmed z).fiu ∧ (s.enterAlarm z).au = (s.zoneAlarmed z).au
      ∧ (s.enterAlarm z).ou.claims = ((s.zoneAlarmed z).withdrawClaims ((shuttlesOf z).map (·.val))).ou.claims := by
  have hwalk := foldl_reads (fun u : State => (u.fiu, u.au, u.tab, u.ou.claims)) beyond_alarmShuttle (shuttlesOf z)
    ((s.zoneAlarmed z).withdrawClaims ((shuttlesOf z).map (·.val)))
  rw [← enterAlarm_aisles h] at hwalk
  obtain ⟨hfiu, hrest⟩ := Prod.mk.inj hwalk
  obtain ⟨hau, hrest⟩ := Prod.mk.inj hrest
  exact ⟨hfiu, hau, (Prod.mk.inj hrest).2⟩

section
variable (ha : zoneOf a = z)
include ha

/-- A shuttle's own part stands as its own turn leaves it. -/
theorem ownPart_enterAlarm (s : State) :
    ∃ u : State, u.ownPart a = s.ownPart a ∧ (s.enterAlarm z).ownPart a = (u.alarmShuttle a).ownPart a := by
  rw [enterAlarm_aisles (ne_frontHall_of_zoneOf ha)]
  exact foldl_reads_turn (State.ownPart · a) (fun u b hb => ownPart_alarmShuttle_ne u hb) (nodup_shuttlesOf z)
    (mem_shuttlesOf.2 ha) ((s.zoneAlarmed z).withdrawClaims ((shuttlesOf z).map (·.val)))

/-- The turn of a shuttle, told of its record and its message in the state that entered ALARM. -/
theorem enterAlarm_turn (s : State) : ∃ u : State, u.shuttle a = s.shuttle a ∧ u.slot a = s.slot a
    ∧ u.commandExchange a = s.commandExchange a ∧ (s.enterAlarm z).shuttle a = (u.alarmShuttle a).shuttle a
    ∧ (s.enterAlarm z).slot a = (u.alarmShuttle a).slot a := by
  obtain ⟨u, hu, ht⟩ := ownPart_enterAlarm ha s
  obtain ⟨hshuttle, hslot, hx⟩ := ownPart_eq_iff.1 hu
  obtain ⟨hshuttle', hslot', -⟩ := ownPart_eq_iff.1 ht
  exact ⟨u, hshuttle, hslot, hx, hshuttle', hslot'⟩

theorem enterAlarm_parks (h : s.Moving a) (hc : s.Replaceable a) :
    (s.enterAlarm z).shuttle a = Shuttle.fireParking { s.shuttle a with revivalRetry := none }
      ∧ (s.enterAlarm z).slot a = some (.command .park true) := by
  obtain ⟨u, hshuttle, -, hx, ht, hslot⟩ := enterAlarm_turn ha s
  rw [ht, hslot, ← hshuttle]
  refine alarmShuttle_parks ?_ ?_
  · rwa [State.Moving, hshuttle]
  · rwa [State.Replaceable, hshuttle, hx]

theorem enterAlarm_takesPark (h : s.Moving a) {c : InFlight} (hc : (s.shuttle a).command = some c) (hm : c.motion = .park) :
    (s.enterAlarm z).shuttle a =
        { s.shuttle a with command := some { c with fire := true }, deadline := none, revivalRetry := none }
      ∧ (s.enterAlarm z).slot a = parkAsFire (s.slot a) := by
  obtain ⟨u, hshuttle, hmessage, -, ht, hslot⟩ := enterAlarm_turn ha s
  rw [← hshuttle] at hc
  rw [ht, hslot, ← hshuttle, ← hmessage]
  refine alarmShuttle_takesPark ?_ hc hm
  rwa [State.Moving, hshuttle]

theorem enterAlarm_leaves (h : s.Moving a) {c : InFlight} (hc : (s.shuttle a).command = some c) (hm : c.motion ≠ .park)
    (hx : s.commandExchange a = true) : (s.enterAlarm z).shuttle a = { s.shuttle a with revivalRetry := none }
      ∧ (s.enterAlarm z).slot a = s.slot a := by
  obtain ⟨u, hshuttle, hmessage, hexchange, ht, hslot⟩ := enterAlarm_turn ha s
  rw [← hshuttle] at hc
  rw [ht, hslot, ← hshuttle, ← hmessage]
  refine alarmShuttle_leaves ?_ hc hm (hexchange.trans hx)
  rwa [State.Moving, hshuttle]

theorem enterAlarm_withdraws (h : ¬ s.Moving a) :
    (s.enterAlarm z).shuttle a = { s.shuttle a with revivalRetry := none } ∧ (s.enterAlarm z).slot a = none := by
  obtain ⟨u, hshuttle, -, -, ht, hslot⟩ := enterAlarm_turn ha s
  rw [ht, hslot, ← hshuttle]
  refine alarmShuttle_withdraws ?_
  rwa [State.Moving, hshuttle]

/-! ## The orders (R57) -/

theorem order?_enterAlarm {st : RunStage} {m : Motion} (hc : s.currentOrder? a = some (o, r)) (hst : r.stage = .run st)
    (hm : s.stageCommand? r st = some m) : (s.enterAlarm z).order? o = some (r.haltedIn st m .fire) := by
  obtain ⟨hcurrent, hentry⟩ := currentOrder?_eq_some.1 hc
  have htab (u : State) (b : Aisle) : (u.alarmShuttle b).tab = u.tab := congrArg (·.2.2.1) (beyond_alarmShuttle u b)
  have hstays (u : State) (b : Aisle) (h : u.order? o = some (r.haltedIn st m .fire)) :
      (u.alarmShuttle b).order? o = some (r.haltedIn st m .fire) := by
    rw [order?_alarmShuttle, order?_haltCurrent_halted h rfl]
  rw [enterAlarm_aisles (ne_frontHall_of_zoneOf ha)]
  refine foldl_turn (f := fun s a => s.alarmShuttle a)
    (P := fun u => u.tab = s.tab ∧ (u.shuttle a).order = some o
      ∧ (u.order? o = some r ∨ u.order? o = some (r.haltedIn st m .fire)))
    (fun u b hb ⟨ht, ho, hr⟩ => ⟨(htab u b).trans ht, ?_, ?_⟩) (fun u ⟨ht, ho, hr⟩ => ?_) (fun u b _ hr => hstays u b hr)
    (nodup_shuttlesOf z) (mem_shuttlesOf.2 ha) ⟨rfl, hcurrent, .inl hentry⟩
  · rw [(ownPart_eq_iff.1 (ownPart_alarmShuttle_ne u hb)).1, ho]
  · obtain hr | hr := hr
    · rw [order?_alarmShuttle]
      exact order?_haltCurrent_run hr hst ((stageCommand?_congr ht r st).trans hm) b .fire
    · exact .inr (hstays u b hr)
  · obtain hr | hr := hr
    · rw [order?_alarmShuttle, haltCurrent_of_run (currentOrder?_eq_some.2 ⟨ho, hr⟩) .fire hst
        ((stageCommand?_congr ht r st).trans hm), order?_putOrder, if_pos rfl]
    · exact hstays u a hr

/-! ## The exchange in progress, the claims and the window -/

theorem exchange_enterAlarm {x : Exchange} (hx : s.alc.exchange = some x) (hxa : x.shuttle = a) :
    (s.enterAlarm z).alc.exchange = some (x.alarmed a) := by
  rw [enterAlarm_aisles (ne_frontHall_of_zoneOf ha)]
  refine foldl_turn (f := fun s a => s.alarmShuttle a) (P := fun u => u.alc.exchange = some x)
    (Q := fun u => u.alc.exchange = some (x.alarmed a)) (fun u b hb h => ?_) (fun u h => ?_) (fun u b hb h => ?_)
    (nodup_shuttlesOf z) (mem_shuttlesOf.2 ha) hx
  · rw [exchange_alarmShuttle, h, Option.map_some, alarmed_of_ne (hxa.trans_ne (Ne.symm hb))]
  · rw [exchange_alarmShuttle, h, Option.map_some]
  · rw [exchange_alarmShuttle, h, Option.map_some, alarmed_of_ne ((shuttle_alarmed a x).trans_ne (hxa.trans_ne (Ne.symm hb)))]

theorem restore_not_mem_enterAlarm (s : State) (b : BinNo) : Claim.restore a b ∉ (s.enterAlarm z).ou.claims := by
  obtain ⟨-, -, hclaims⟩ := beyond_enterAlarm (s := s) (ne_frontHall_of_zoneOf ha)
  have hrank : (Claim.restore a b).rank ∈ (shuttlesOf z).map (·.val) := List.mem_map.2 ⟨a, mem_shuttlesOf.2 ha, rfl⟩
  rw [hclaims, State.withdrawClaims_ou_claims, List.mem_filter]
  rintro ⟨-, h⟩
  exact absurd (List.contains_iff_mem.2 hrank) (by simpa using h)

/-- Where no request waits on another shuttle's message, the window stands as the withdrawal of the shuttle's own leaves it. -/
theorem win_enterAlarm (h : ¬ s.Moving a ∨ s.Replaceable a) (hothers : ∀ b, b ≠ a → ¬ s.Awaited b) {w : Window}
    (hown : ∀ u : State, u.slot a = s.slot a → u.win = s.win → (u.withdrawForAlarm a).win = w) :
    (s.enterAlarm z).win = w := by
  have hawaited (u : State) (b : Aisle) (hb : ∀ c, c ≠ a → ¬ u.Awaited c) (c : Aisle) (hc : c ≠ a) :
      ¬ (u.alarmShuttle b).Awaited c := by
    by_cases hbc : b = c
    · subst hbc
      exact not_awaited_alarmShuttle (hb b hc)
    · obtain ⟨-, hslot, -⟩ := ownPart_eq_iff.1 (ownPart_alarmShuttle_ne u hbc)
      rw [State.Awaited, hslot]
      exact hb c hc
  have hwalk : (s.enterAlarm z).win = w ∧ ∀ b, b ≠ a → ¬ (s.enterAlarm z).Awaited b := by
    rw [enterAlarm_aisles (ne_frontHall_of_zoneOf ha)]
    refine foldl_turn (f := fun s a => s.alarmShuttle a)
      (P := fun u => (u.win = s.win ∧ u.ownPart a = s.ownPart a) ∧ ∀ b, b ≠ a → ¬ u.Awaited b)
      (Q := fun u => u.win = w ∧ ∀ b, b ≠ a → ¬ u.Awaited b)
      (fun u b hb ⟨⟨hwin, hpart⟩, hu⟩ => ⟨⟨?_, ?_⟩, hawaited u b hu⟩) (fun u ⟨⟨hwin, hpart⟩, hu⟩ => ⟨?_, hawaited u a hu⟩)
      (fun u b hb ⟨hwin, hu⟩ => ⟨?_, hawaited u b hu⟩) (nodup_shuttlesOf z) (mem_shuttlesOf.2 ha) ⟨⟨rfl, rfl⟩, hothers⟩
    · rw [win_alarmShuttle_other (hu b hb), hwin]
    · rw [ownPart_alarmShuttle_ne u hb, hpart]
    · obtain ⟨hshuttle, hslot, hx⟩ := ownPart_eq_iff.1 hpart
      rw [win_alarmShuttle (by rwa [State.Moving, State.Replaceable, hshuttle, hx])]
      exact hown _ ((slot_haltForAlarm u a a).trans hslot) ((win_haltForAlarm u a).trans hwin)
    · rw [win_alarmShuttle_other (hu b hb), hwin]
  exact hwalk.1

end

end Sys2Proof.Machine
end

section
/-! The front hall in ALARM: the lane stops, the stations are held, and the HAND_OFF and TAKE_ON messages that wait are withdrawn
(R85, R97, R133, R145). -/
namespace Sys2Proof.Machine

variable {s : State} {a b : Aisle} {o : OrderNo} {r : Order} {m : Motion} {f : Bool}

/-! ## The lane and the stations -/

/-- A crossing that the stop claim keeps (R97). -/
def Crossing.stop (c : Crossing) : Crossing := { c with state := .stopped }

theorem stopLane_eq (s : State) :
    s.stopLane = { s with lc.lstop := true, lc.crossing := s.lc.crossing.map Crossing.stop } := by
  obtain hc | ⟨c, hc⟩ := Option.eq_none_or_eq_some s.lc.crossing
  · simp only [State.stopLane, hc]
    rfl
  · simp only [State.stopLane, hc]
    rfl

theorem stationState_holdStations (s : State) (n : StationNo) :
    s.holdStations.stationState n = (s.stationState n).held := by
  rw [State.holdStations, State.holdReturn, closeReturn_eq]
  exact mapRow_getElem StationState.held s.su.states n.val n.isLt

theorem position_holdStations (s : State) (p : Position) :
    s.holdStations.position p = if s.position p = .wanting then .empty else s.position p :=
  position_closeReturn { s with su.states := mapRow StationState.held s.su.states } p

/-- No claim of the return station is left (R133). -/
theorem marks_holdStations (s : State) (p : Position) :
    s.holdStations.fetchMark p = false ∧ s.holdStations.dismissalMark p = false := by
  have hclaims : s.holdStations.ou.claims =
      (s.ou.claims.filter fun c => !(c.rank == 8 || c.rank == 9)).filter fun c => !([6, 7] : List Nat).contains c.rank :=
    congrArg (List.filter _) (claims_closeReturn { s with su.states := mapRow StationState.held s.su.states })
  simp only [State.fetchMark, State.dismissalMark, State.claims, hclaims, List.any_eq_false, List.mem_filter]
  refine ⟨fun c hc => ?_, fun c hc => ?_⟩
  · obtain ⟨⟨-, hc⟩, -⟩ := hc
    cases p <;> simp_all [Claim.rank]
  · obtain ⟨-, hc⟩ := hc
    cases p <;> simp_all [Claim.rank]

/-- The stations' hold leaves all but the stations and the claims. -/
theorem beyond_holdStations (s : State) : s.holdStations.alc = s.alc ∧ s.holdStations.ou.orders = s.ou.orders
    ∧ s.holdStations.lc = s.lc ∧ s.holdStations.fiu = s.fiu ∧ s.holdStations.au = s.au := by
  rw [State.holdStations, State.holdReturn, closeReturn_eq]
  exact ⟨rfl, rfl, rfl, rfl, rfl⟩

/-! ## The port commands that wait (R85) -/

theorem withdrawWaitingPort_port (h : s.slot a = some (.command m f)) (hm : m.atPort = true) :
    s.withdrawWaitingPort a = s.withdrawPortCommand a := by
  cases m with
  | handOff => simp only [State.withdrawWaitingPort, h]
  | takeOn => simp only [State.withdrawWaitingPort, h]
  | _ => cases hm

theorem withdrawWaitingPort_cases (s : State) (a : Aisle) :
    s.withdrawWaitingPort a = s ∨ s.withdrawWaitingPort a = s.withdrawPortCommand a := by
  unfold State.withdrawWaitingPort
  split
  · exact .inr rfl
  · exact .inr rfl
  · exact .inl rfl

/-- The shuttle's part of a withdrawal: its slot is empty and no command is in flight (R85; log entry 22). -/
def State.dropPortCommand (a : Aisle) (s : State) : State := (s.setSlot a none).clearCommand a

theorem currentOrder?_dropPortCommand (s : State) (a : Aisle) :
    (s.dropPortCommand a).currentOrder? a = s.currentOrder? a := by
  have hself : (s.dropPortCommand a).shuttle a = { s.shuttle a with command := none, deadline := none } :=
    shuttle_putShuttle_self (s.setSlot a none) a _
  exact currentOrder?_congr (by rw [hself]) rfl

theorem withdrawPortCommand_handing (hc : s.currentOrder? a = some (o, r)) (hst : r.stage = .run .handing) :
    s.withdrawPortCommand a = (s.dropPortCommand a).putOrder o { r with stage := .run .holding } := by
  have hcurrent := (currentOrder?_dropPortCommand s a).trans hc
  rw [State.dropPortCommand] at hcurrent
  simp only [State.withdrawPortCommand, hcurrent, hst, if_true, State.dropPortCommand]

theorem withdrawPortCommand_other (h : ∀ o r, s.currentOrder? a = some (o, r) → r.stage ≠ .run .handing) :
    s.withdrawPortCommand a = s.dropPortCommand a := by
  rw [← currentOrder?_dropPortCommand] at h
  rw [State.dropPortCommand] at h ⊢
  unfold State.withdrawPortCommand
  cases hc : ((s.setSlot a none).clearCommand a).currentOrder? a with
  | none => simp only [hc]
  | some q =>
    obtain ⟨o, r⟩ := q
    simp only [hc, if_neg (h o r hc)]

theorem withdrawPortCommand_cases (s : State) (a : Aisle) : s.withdrawPortCommand a = s.dropPortCommand a
    ∨ ∃ o r, s.currentOrder? a = some (o, r) ∧ r.stage = .run .handing
      ∧ s.withdrawPortCommand a = (s.dropPortCommand a).putOrder o { r with stage := .run .holding } := by
  by_cases h : ∀ o r, s.currentOrder? a = some (o, r) → r.stage ≠ .run .handing
  · exact .inl (withdrawPortCommand_other h)
  · simp only [not_forall, not_not] at h
    obtain ⟨o, r, hc, hst⟩ := h
    exact .inr ⟨o, r, hc, hst, withdrawPortCommand_handing hc hst⟩

theorem shuttle_withdrawPortCommand (s : State) (a b : Aisle) : (s.withdrawPortCommand a).shuttle b =
    if a = b then { s.shuttle a with command := none, deadline := none } else s.shuttle b := by
  obtain ⟨v, hv⟩ := withdrawPortCommand_frame s a
  rw [hv]
  exact shuttle_putShuttle (s.setSlot a none) a b _

theorem slot_withdrawPortCommand (s : State) (a b : Aisle) :
    (s.withdrawPortCommand a).slot b = if a = b then none else s.slot b := by
  obtain ⟨v, hv⟩ := withdrawPortCommand_frame s a
  rw [hv]
  exact slot_setSlot s a b none

/-- An order that is not HANDING stays as it is, whichever shuttle's message is withdrawn. -/
theorem order?_withdrawWaitingPort (h : s.order? o = some r) (hst : r.stage ≠ .run .handing) (b : Aisle) :
    (s.withdrawWaitingPort b).order? o = some r := by
  obtain hstays | hport := withdrawWaitingPort_cases s b
  · rw [hstays, h]
  · obtain hdrop | ⟨q, r', hc, hst', hput⟩ := withdrawPortCommand_cases s b
    · rw [hport, hdrop]
      exact h
    · have hq : q ≠ o := by
        rintro rfl
        obtain rfl : r' = r := Option.some.inj ((currentOrder?_eq_some.1 hc).2.symm.trans h)
        exact hst hst'
      rw [hport, hput, order?_putOrder, if_neg hq]
      exact h

/-- A HANDING order stays as it is or returns to HOLDING: its entry does not tell by which shuttle. -/
theorem order?_withdrawWaitingPort_handing (h : s.order? o = some r) (b : Aisle) :
    (s.withdrawWaitingPort b).order? o = some r
      ∨ (s.withdrawWaitingPort b).order? o = some { r with stage := .run .holding } := by
  obtain hstays | hport := withdrawWaitingPort_cases s b
  · exact .inl (by rw [hstays, h])
  · obtain hdrop | ⟨q, r', hc, -, hput⟩ := withdrawPortCommand_cases s b
    · exact .inl (by rw [hport, hdrop]; exact h)
    · by_cases hq : q = o
      · subst hq
        obtain rfl : r' = r := Option.some.inj ((currentOrder?_eq_some.1 hc).2.symm.trans h)
        exact .inr (by rw [hport, hput, order?_putOrder, if_pos rfl])
      · exact .inl (by rw [hport, hput, order?_putOrder, if_neg hq]; exact h)

/-- The withdrawals leave the zones, the attention block, the lane, the stations and the claims. -/
theorem beyond_withdrawWaitingPort (s : State) (a : Aisle) :
    ((s.withdrawWaitingPort a).fiu, (s.withdrawWaitingPort a).au, (s.withdrawWaitingPort a).lc, (s.withdrawWaitingPort a).su,
      (s.withdrawWaitingPort a).ou.claims) = (s.fiu, s.au, s.lc, s.su, s.ou.claims) := by
  obtain hstays | hport := withdrawWaitingPort_cases s a
  · rw [hstays]
  · obtain ⟨v, hv⟩ := withdrawPortCommand_frame s a
    rw [hport, hv]
    rfl

theorem link_withdrawWaitingPort_ne (s : State) (h : b ≠ a) :
    ((s.withdrawWaitingPort b).shuttle a, (s.withdrawWaitingPort b).slot a) = (s.shuttle a, s.slot a) := by
  obtain hstays | hport := withdrawWaitingPort_cases s b
  · rw [hstays]
  · rw [hport, shuttle_withdrawPortCommand, slot_withdrawPortCommand, if_neg h, if_neg h]

/-! ## The hall's claims (R145) -/

/-- The lane stopped and the stations held, before the walk over the aisles. -/
def State.hallHeld (s : State) : State := s.stopLane.holdStations

theorem alarmHall_eq (s : State) : s.alarmHall = aisles.foldl (fun s a => s.withdrawWaitingPort a) s.hallHeld := rfl

theorem hallHeld_reads (s : State) : s.hallHeld.alc = s.alc ∧ s.hallHeld.ou.orders = s.ou.orders
    ∧ s.hallHeld.lc = s.stopLane.lc ∧ s.hallHeld.fiu = s.fiu ∧ s.hallHeld.au = s.au := by
  obtain ⟨halc, horders, hlc, hfiu, hau⟩ := beyond_holdStations s.stopLane
  rw [stopLane_eq] at halc horders hfiu hau
  rw [State.hallHeld]
  refine ⟨?_, ?_, hlc, ?_, ?_⟩ <;> rw [stopLane_eq] <;> assumption

theorem beyond_alarmHall (s : State) : s.alarmHall.fiu = s.fiu ∧ s.alarmHall.au = s.au ∧ s.alarmHall.lc = s.stopLane.lc
    ∧ s.alarmHall.su = s.hallHeld.su ∧ s.alarmHall.ou.claims = s.hallHeld.ou.claims := by
  obtain ⟨-, -, hlc, hfiu, hau⟩ := hallHeld_reads s
  have hwalk := foldl_reads (fun u : State => (u.fiu, u.au, u.lc, u.su, u.ou.claims)) beyond_withdrawWaitingPort aisles s.hallHeld
  rw [← alarmHall_eq] at hwalk
  simp only [Prod.mk.injEq] at hwalk
  obtain ⟨hfiu', hau', hlc', hsu', hclaims'⟩ := hwalk
  exact ⟨hfiu'.trans hfiu, hau'.trans hau, hlc'.trans hlc, hsu', hclaims'⟩

section
variable (h : s.slot a = some (.command m f)) (hm : m.atPort = true)
include h hm

theorem alarmHall_withdraws : s.alarmHall.slot a = none
    ∧ s.alarmHall.shuttle a = { s.shuttle a with command := none, deadline := none } := by
  obtain ⟨u, hu, ht⟩ := foldl_reads_turn (f := fun s a => s.withdrawWaitingPort a) (fun u : State => (u.shuttle a, u.slot a))
    (fun u b hb => link_withdrawWaitingPort_ne u hb) nodup_aisles (mem_aisles a) s.hallHeld
  obtain ⟨halc, -⟩ := hallHeld_reads s
  rw [← alarmHall_eq] at ht
  simp only [Prod.mk.injEq, State.shuttle, State.slot, halc] at hu ht
  obtain ⟨hshuttle, hslot⟩ := hu
  obtain ⟨hshuttle', hslot'⟩ := ht
  have hport : u.withdrawWaitingPort a = u.withdrawPortCommand a := withdrawWaitingPort_port (hslot.trans h) hm
  rw [hport] at hshuttle' hslot'
  refine ⟨hslot'.trans ((slot_withdrawPortCommand u a a).trans (if_pos rfl)),
    hshuttle'.trans ((shuttle_withdrawPortCommand u a a).trans ((if_pos rfl).trans ?_))⟩
  rw [show u.shuttle a = s.shuttle a from hshuttle]

theorem order?_alarmHall_handing (hc : s.currentOrder? a = some (o, r)) (hst : r.stage = .run .handing) :
    s.alarmHall.order? o = some { r with stage := .run .holding } := by
  obtain ⟨hcurrent, hentry⟩ := currentOrder?_eq_some.1 hc
  obtain ⟨halc, horders, -⟩ := hallHeld_reads s
  rw [State.order?, ← horders] at hentry
  rw [State.shuttle, ← halc] at hcurrent
  rw [State.slot, ← halc] at h
  have hstays (u : State) (b : Aisle) (hu : u.order? o = some { r with stage := .run .holding }) :
      (u.withdrawWaitingPort b).order? o = some { r with stage := .run .holding } :=
    order?_withdrawWaitingPort hu (by simp) b
  refine foldl_turn (f := fun s a => s.withdrawWaitingPort a)
    (P := fun u => (u.shuttle a, u.slot a) = (s.hallHeld.shuttle a, s.hallHeld.slot a)
      ∧ (u.order? o = some r ∨ u.order? o = some { r with stage := .run .holding }))
    (Q := fun u => u.order? o = some { r with stage := .run .holding })
    (fun u b hb ⟨hlink, hr⟩ => ⟨(link_withdrawWaitingPort_ne u hb).trans hlink, ?_⟩) (fun u ⟨hlink, hr⟩ => ?_)
    (fun u b _ hu => hstays u b hu) nodup_aisles (mem_aisles a) ⟨rfl, .inl hentry⟩
  · obtain hr | hr := hr
    · exact order?_withdrawWaitingPort_handing hr b
    · exact .inr (hstays u b hr)
  · obtain hr | hr := hr
    · obtain ⟨hshuttle, hslot⟩ := Prod.mk.inj hlink
      have hu : u.currentOrder? a = some (o, r) := currentOrder?_eq_some.2 ⟨by rw [hshuttle]; exact hcurrent, hr⟩
      rw [withdrawWaitingPort_port (hslot.trans h) hm, withdrawPortCommand_handing hu hst, order?_putOrder, if_pos rfl]
    · exact hstays u a hr

end

theorem order?_alarmHall_stays (h : s.order? o = some r) (hst : r.stage ≠ .run .handing) : s.alarmHall.order? o = some r := by
  obtain ⟨-, horders, -⟩ := hallHeld_reads s
  rw [State.order?, ← horders] at h
  exact foldl_keeps (P := fun u => u.order? o = some r) (fun u b hu => order?_withdrawWaitingPort hu hst b) aisles h

end Sys2Proof.Machine
end

section
/-! A change of an alarm line, and what entering ALARM does (R142 to R145). -/
namespace Sys2Proof.Machine

variable {s : State} {a : Aisle} {z : ZoneNo} {o : OrderNo} {r : Order}

/-! ## ALARM_LINE_CHANGE (R142) -/

theorem whenRunning_of_starting (hp : s.phase = .starting) (f : State → State) : s.whenRunning f = s := by
  simp only [State.whenRunning, hp]

theorem exec_alarmLineChange (hp : s.phase = .running) (z : ZoneNo) (active : Bool) :
    exec (.alarmLineChange z active) s = .next ((s.setPin z active).takeLine z active) :=
  congrArg _ (whenRunning_of_running (s := s.setPin z active) hp (State.takeLine z active))

theorem alarmable_iff : s.alarmable z = true ↔ s.zoneState z = .normal ∨ s.zoneState z = .recovery := by
  simp [State.alarmable]

theorem zoneState_setLine (s : State) (z w : ZoneNo) (active : Bool) : (s.setLine z active).zoneState w = s.zoneState w := by
  rw [State.zoneState, zone_setLine]
  split
  · rename_i h
    subst h
    rfl
  · rfl

theorem takeLine_alarms (h : s.zoneState z = .normal ∨ s.zoneState z = .recovery) :
    s.takeLine z true = ((s.setLine z true).enterAlarm z).settle := by
  have halarm : (s.setLine z true).alarmable z = true := alarmable_iff.2 (by rwa [zoneState_setLine])
  simp only [State.takeLine, halarm, Bool.and_self, if_true]

theorem takeLine_records {active : Bool} (h : active = false ∨ (s.zoneState z ≠ .normal ∧ s.zoneState z ≠ .recovery)) :
    s.takeLine z active = s.setLine z active := by
  have hno : ¬ (active && (s.setLine z active).alarmable z) = true := by
    rw [Bool.and_eq_true, alarmable_iff, zoneState_setLine]
    rintro ⟨rfl, hz⟩
    obtain h | ⟨hnormal, hrecovery⟩ := h
    · cases h
    · exact hz.elim hnormal hrecovery
  simp only [State.takeLine, if_neg hno]

/-! ## Every zone (R143) -/

/-- The zones' records and the latches as entering ALARM leaves them: the claims that follow touch neither. -/
theorem enterAlarm_records (s : State) (z : ZoneNo) :
    (s.enterAlarm z).fiu = (s.zoneAlarmed z).fiu ∧ (s.enterAlarm z).au = (s.zoneAlarmed z).au := by
  by_cases h : z = frontHall
  · subst h
    obtain ⟨hfiu, hau, -⟩ := beyond_alarmHall (s.zoneAlarmed frontHall)
    rw [enterAlarm_hall]
    exact ⟨hfiu, hau⟩
  · obtain ⟨hfiu, hau, -⟩ := beyond_enterAlarm (s := s) h
    exact ⟨hfiu, hau⟩

theorem zone_enterAlarm (s : State) (z : ZoneNo) :
    (s.enterAlarm z).zone z = { s.zone z with state := .alarm s.tab.deadlines[z], clr := false } :=
  (zone_of_fiu (enterAlarm_records s z).1 z).trans (zone_setZoneState_self s z _)

theorem zone_enterAlarm_ne {y : ZoneNo} (s : State) (h : y ≠ z) : (s.enterAlarm z).zone y = s.zone y :=
  (zone_of_fiu (enterAlarm_records s z).1 y).trans (zone_setZoneState_ne h _)

theorem zoneState_enterAlarm (s : State) (z : ZoneNo) : (s.enterAlarm z).zoneState z = .alarm s.tab.deadlines[z] := by
  rw [State.zoneState, zone_enterAlarm]

theorem latchSet_enterAlarm (s : State) (z : ZoneNo) : (s.enterAlarm z).latchSet .zoneAlarm :=
  latchSet_of_au (enterAlarm_records s z).2 (latchSet_latch_self (s := s.setZoneState z _) .zoneAlarm)

/-! ## The front hall (R145) -/

theorem marks_enterAlarm_hall (s : State) (p : Position) :
    (s.enterAlarm frontHall).fetchMark p = false ∧ (s.enterAlarm frontHall).dismissalMark p = false := by
  obtain ⟨-, -, -, -, hclaims⟩ := beyond_alarmHall (s.zoneAlarmed frontHall)
  rw [enterAlarm_hall]
  simp only [State.fetchMark, State.dismissalMark, State.claims, hclaims]
  exact marks_holdStations _ p

theorem position_enterAlarm_hall (s : State) (p : Position) :
    (s.enterAlarm frontHall).position p = if s.position p = .wanting then .empty else s.position p := by
  obtain ⟨-, -, -, hsu, -⟩ := beyond_alarmHall (s.zoneAlarmed frontHall)
  have hposition : (s.enterAlarm frontHall).position p = (s.zoneAlarmed frontHall).hallHeld.position p := by
    rw [enterAlarm_hall]
    cases p <;> simp only [State.position, hsu]
  rw [hposition, State.hallHeld, position_holdStations, stopLane_eq]
  cases p <;> rfl

theorem stationState_enterAlarm_hall (s : State) (n : StationNo) :
    (s.enterAlarm frontHall).stationState n = (s.stationState n).held := by
  obtain ⟨-, -, -, hsu, -⟩ := beyond_alarmHall (s.zoneAlarmed frontHall)
  rw [enterAlarm_hall, State.stationState, hsu]
  refine (stationState_holdStations _ n).trans ?_
  rw [stopLane_eq]
  rfl

theorem lane_enterAlarm_hall (s : State) :
    (s.enterAlarm frontHall).lc = { s.lc with lstop := true, crossing := s.lc.crossing.map Crossing.stop } := by
  obtain ⟨-, -, hlc, -⟩ := beyond_alarmHall (s.zoneAlarmed frontHall)
  rw [enterAlarm_hall, hlc, stopLane_eq]
  rfl

/-- Settles O45: the change of the line by the phase and the zone's state; then ALARM, shuttle by shuttle for an aisle zone
and block by block for the front hall. -/
theorem alarmLineTakesTheZoneIntoAlarm : Obligations.AlarmLineTakesTheZoneIntoAlarm := by
  refine ⟨fun s z active => ?line, fun s z => ⟨zone_enterAlarm s z, fun y => zone_enterAlarm_ne s, latchSet_enterAlarm s z,
    fun a ha => ?aisle, ?hall⟩⟩
  case line =>
    intro pin
    refine ⟨fun hp => ?starting, fun hp => ⟨fun h => ?records, fun hactive h => ?alarms⟩⟩
    case starting => exact congrArg _ (whenRunning_of_starting (s := pin) hp (State.takeLine z active))
    case records => exact (exec_alarmLineChange hp z active).trans (congrArg _ (takeLine_records (s := pin) h))
    case alarms =>
      subst hactive
      exact (exec_alarmLineChange hp z true).trans (congrArg _ (takeLine_alarms (s := pin) h))
  case aisle =>
    refine ⟨fun o r st m hc hst hm => order?_enterAlarm ha hc hst hm, fun h hc => ?parks, fun h c hc => ⟨fun hm => ?takes,
      fun hm hx => enterAlarm_leaves ha h hc hm hx⟩, fun hidle hbusy => ?rests, fun h hothers => ?window,
      fun x hx hxa => ?exchange, restore_not_mem_enterAlarm ha s⟩
    case parks =>
      obtain ⟨hshuttle, hslot⟩ := enterAlarm_parks ha h hc
      rw [hshuttle]
      exact ⟨rfl, rfl, rfl, hslot⟩
    case takes =>
      obtain ⟨hshuttle, hslot⟩ := enterAlarm_takesPark ha h hc hm
      exact ⟨hshuttle, fun f hf => hslot.trans (by rw [hf]; rfl), fun hf => hslot.trans (by rw [hf]; rfl)⟩
    case rests =>
      obtain ⟨hshuttle, hslot⟩ := enterAlarm_withdraws ha (not_or.2 ⟨hidle, hbusy⟩)
      exact ⟨by rw [hshuttle], hslot⟩
    case window =>
      have hown := fun w => win_enterAlarm ha (w := w) (h.imp_left not_or.2) fun b hb => not_or.2 (hothers b hb)
      refine ⟨fun hm => hown _ fun u hslot hwin => ?_, fun hm => hown _ fun u hslot hwin => ?_⟩
      · rw [win_withdrawForAlarm_resume (hslot.trans hm), State.endRequest, State.endRequest, hwin]
      · rw [win_withdrawForAlarm_hostRevival (hslot.trans hm), State.endRequest, State.endRequest, hwin]
    case exchange => exact (exchange_enterAlarm ha hx hxa).trans (congrArg some (alarmed_of_eq hxa))
  case hall =>
    intro hz
    obtain rfl : z = frontHall := hz
    refine ⟨by rw [lane_enterAlarm_hall], fun c hc => by rw [lane_enterAlarm_hall, hc]; rfl, fun n => ?_,
      position_enterAlarm_hall s, marks_enterAlarm_hall s, fun a m f hslot hm => ?_⟩
    · exact (stationState_enterAlarm_hall s n).trans (by cases s.stationState n <;> rfl)
    · obtain ⟨hslot', hshuttle⟩ := alarmHall_withdraws (s := s.zoneAlarmed frontHall) hslot hm
      rw [enterAlarm_hall]
      exact ⟨hslot', hshuttle, fun o r hc hst => order?_alarmHall_handing hslot hm hc hst,
        fun o r hc hst => order?_alarmHall_stays (currentOrder?_eq_some.1 hc).2 (by simp [hst])⟩

end Sys2Proof.Machine
end

section
/-! The sealing of an aisle zone: its shuttles fall silent and let their orders go (R85, R148). -/
namespace Sys2Proof.Machine

variable {s : State} {a b : Aisle} {z : ZoneNo} {o : OrderNo} {r : Order}

/-! ## A shuttle falls silent (R85) -/

/-- The record of a shuttle that is sent nothing more (R85). -/
def Shuttle.silenced (q : Shuttle) : Shuttle := { q with command := none, deadline := none, revivalRetry := none }

/-- All that silencing a shuttle changes: its record, its slot, the use of its exchange's result, and the window of a request that
is refused. -/
theorem silenceShuttle_frame (s : State) (a : Aisle) : ∃ w, s.silenceShuttle a =
    { (s.putShuttle a (s.shuttle a).silenced).setSlot a none with
      alc.exchange := s.alc.exchange.map fun x => x.limit a .discard
      win := w } := by
  obtain ⟨w, hw⟩ := withdrawForAlarm_frame s a
  refine ⟨w, ?_⟩
  have hrecord (u : State) : (u.clearCommand a).changeShuttle a (fun q => { q with revivalRetry := none }) =
      u.putShuttle a (u.shuttle a).silenced := by
    rw [State.clearCommand, changeShuttle_eq, changeShuttle_eq, putShuttle_putShuttle, shuttle_putShuttle_self]
    rfl
  rw [State.silenceShuttle, hrecord, hw]
  rfl

theorem currentOrder?_silenceShuttle (s : State) (a b : Aisle) : (s.silenceShuttle a).currentOrder? b = s.currentOrder? b := by
  obtain ⟨w, hw⟩ := silenceShuttle_frame s a
  have hshuttle : (s.silenceShuttle a).shuttle b = if a = b then (s.shuttle a).silenced else s.shuttle b := by
    rw [hw]
    exact shuttle_putShuttle s a b _
  refine currentOrder?_congr ?_ (by rw [hw]; rfl)
  rw [hshuttle]
  split
  · rename_i h
    subst h
    rfl
  · rfl

/-! ## Its order finishes (R148) -/

theorem sealShuttle_without (hc : s.currentOrder? a = none) : s.sealShuttle a = s.silenceShuttle a := by
  simp only [State.sealShuttle, currentOrder?_silenceShuttle, hc]

theorem sealShuttle_with (hc : s.currentOrder? a = some (o, r)) :
    s.sealShuttle a = (s.silenceShuttle a).finishOrder o .fire := by
  simp only [State.sealShuttle, currentOrder?_silenceShuttle, hc]

/-- A sealing is a silencing, and then the finishing of the order that the shuttle has. -/
theorem sealShuttle_cases (s : State) (a : Aisle) : s.sealShuttle a = s.silenceShuttle a
    ∨ ∃ o r, (s.silenceShuttle a).order? o = some r ∧ s.sealShuttle a = (s.silenceShuttle a).finishOrder o .fire := by
  cases hc : s.currentOrder? a with
  | none => exact .inl (sealShuttle_without hc)
  | some q =>
    obtain ⟨o, r⟩ := q
    have hcurrent := (currentOrder?_silenceShuttle s a a).trans hc
    exact .inr ⟨o, r, (currentOrder?_eq_some.1 hcurrent).2, sealShuttle_with hc⟩

/-! ## The link after a sealing -/

/-- A shuttle's record apart from its current order. -/
def Shuttle.apart (q : Shuttle) : Shuttle := { q with order := none }

/-- What a finishing order leaves of the link: all but the shuttles' current orders (R43). -/
theorem link_finishOrder (h : s.order? o = some r) (out : Outcome) (b : Aisle) :
    ((s.finishOrder o out).shuttle b).apart = (s.shuttle b).apart ∧ (s.finishOrder o out).slot b = s.slot b
      ∧ (s.finishOrder o out).alc.exchange = s.alc.exchange := by
  refine ⟨?_, ?_, ?_⟩
  · rw [shuttle_finishOrder h, shuttle_dropCurrent]
    split <;> rfl
  · rw [finishOrder_eq h]
    change (s.dropCurrent r.aisle o).slot b = s.slot b
    unfold State.dropCurrent
    split <;> rfl
  · rw [finishOrder_eq h]
    change (s.dropCurrent r.aisle o).alc.exchange = s.alc.exchange
    unfold State.dropCurrent
    split <;> rfl

/-- The link after a sealing is that of the silencing, but for the shuttles' current orders. -/
theorem link_sealShuttle (s : State) (a b : Aisle) :
    ((s.sealShuttle a).shuttle b).apart = ((s.silenceShuttle a).shuttle b).apart
      ∧ (s.sealShuttle a).slot b = (s.silenceShuttle a).slot b
      ∧ (s.sealShuttle a).alc.exchange = (s.silenceShuttle a).alc.exchange := by
  obtain h | ⟨o, r, ho, h⟩ := sealShuttle_cases s a
  · rw [h]
    exact ⟨rfl, rfl, rfl⟩
  · rw [h]
    exact link_finishOrder ho .fire b

theorem sealShuttle_silences (s : State) (a : Aisle) :
    ((s.sealShuttle a).shuttle a).apart = (s.shuttle a).silenced.apart ∧ (s.sealShuttle a).slot a = none := by
  obtain ⟨w, hw⟩ := silenceShuttle_frame s a
  obtain ⟨hrecord, hslot, -⟩ := link_sealShuttle s a a
  rw [hrecord, hslot, hw]
  exact ⟨congrArg Shuttle.apart (shuttle_putShuttle_self s a _), slot_setSlot_self _ a none⟩

theorem link_sealShuttle_ne (s : State) (h : b ≠ a) :
    (((s.sealShuttle b).shuttle a).apart, (s.sealShuttle b).slot a) = ((s.shuttle a).apart, s.slot a) := by
  obtain ⟨w, hw⟩ := silenceShuttle_frame s b
  obtain ⟨hrecord, hslot, -⟩ := link_sealShuttle s b a
  rw [hrecord, hslot, hw]
  exact Prod.ext (congrArg Shuttle.apart ((shuttle_putShuttle s b a _).trans (if_neg h)))
    ((slot_setSlot (s.putShuttle b _) b a none).trans (if_neg h))

theorem exchange_sealShuttle (s : State) (a : Aisle) :
    (s.sealShuttle a).alc.exchange = s.alc.exchange.map fun x => x.limit a .discard := by
  obtain ⟨w, hw⟩ := silenceShuttle_frame s a
  rw [(link_sealShuttle s a a).2.2, hw]

theorem beyond_sealShuttle (s : State) (a : Aisle) :
    ((s.sealShuttle a).fiu, (s.sealShuttle a).au) = (s.fiu, s.au) := by
  obtain ⟨w, hw⟩ := silenceShuttle_frame s a
  have hsilence : ((s.silenceShuttle a).fiu, (s.silenceShuttle a).au) = (s.fiu, s.au) := by rw [hw]; rfl
  obtain h | ⟨o, r, ho, h⟩ := sealShuttle_cases s a
  · rw [h, hsilence]
  · rw [h, finishOrder_eq ho]
    exact hsilence

/-! ## The order that a shuttle lets go (R43, R148) -/

/-- The entry of an order that its zone's sealing has finished: FIRE, or CANCELLED under the cancel mark (R42, R148). -/
def Order.sealed (r : Order) : Order := { r with stage := .finished (r.outcomeOf .fire), pendingOutcome := none }

/-- A bin that no order holds (R43). -/
def BinRec.freed (x : BinRec) : BinRec := { x with holder := none }

/-- A shuttle still has its order; the order's bin is a given one, apart from the holder. -/
def State.HasOrder (a : Aisle) (o : OrderNo) (r : Order) (bin : Option BinRec) (s : State) : Prop :=
  s.currentOrder? a = some (o, r) ∧ (s.binRec? r.bin).map BinRec.freed = bin.map BinRec.freed

/-- The order has been let go: FINISHED, its bin free, and no longer the current order of its aisle's shuttle. -/
def State.LetGo (a : Aisle) (o : OrderNo) (r : Order) (bin : Option BinRec) (s : State) : Prop :=
  s.order? o = some r.sealed ∧ s.binRec? r.bin = bin.map BinRec.freed ∧ (r.aisle = a → (s.shuttle a).order = none)

variable {bin : Option BinRec} {q : OrderNo} {r' : Order}

/-- The bin of an order that finishes is free, as it may be already. -/
theorem map_freed_finishOrder (h : s.order? q = some r') (c : BinNo) :
    ((s.finishOrder q .fire).binRec? c).map BinRec.freed = (s.binRec? c).map BinRec.freed := by
  rw [binRec?_finishOrder h, Option.map_map]
  refine congrArg (Option.map · (s.binRec? c)) (funext fun x => ?_)
  by_cases hc : c = r'.bin
  · simp only [Function.comp, if_pos hc, BinRec.freed]
  · simp only [Function.comp, if_neg hc]

theorem letGo_finishOrder (hs : s.LetGo a o r bin) (h : s.order? q = some r') : (s.finishOrder q .fire).LetGo a o r bin := by
  obtain ⟨hentry, hbin, hcurrent⟩ := hs
  refine ⟨?_, ?_, fun ha => ?_⟩
  · rw [order?_finishOrder s h]
    split
    · rename_i hq
      subst hq
      obtain rfl : r' = r.sealed := Option.some.inj (h.symm.trans hentry)
      rfl
    · exact hentry
  · rw [binRec?_finishOrder h, hbin, Option.map_map]
    refine congrArg (Option.map · bin) (funext fun x => ?_)
    simp only [Function.comp, BinRec.freed, ite_self]
  · rw [shuttle_finishOrder h, shuttle_dropCurrent]
    split
    · rfl
    · exact hcurrent ha

/-- The shuttle's own order, finished, is let go. -/
theorem letGo_of_hasOrder (hs : s.HasOrder a o r bin) : (s.finishOrder o .fire).LetGo a o r bin := by
  obtain ⟨hc, hbin⟩ := hs
  obtain ⟨hcurrent, hentry⟩ := currentOrder?_eq_some.1 hc
  refine ⟨?_, ?_, fun ha => ?_⟩
  · rw [order?_finishOrder s hentry, if_pos rfl]
    rfl
  · rw [binRec?_finishOrder hentry, ← hbin]
    exact congrArg (Option.map · (s.binRec? r.bin)) (funext fun x => if_pos rfl)
  · rw [shuttle_finishOrder hentry, shuttle_dropCurrent, if_pos ⟨ha, hcurrent⟩]

/-- Another order's finishing leaves the shuttle its order. -/
theorem hasOrder_finishOrder (hs : s.HasOrder a o r bin) (h : s.order? q = some r') (hq : q ≠ o) :
    (s.finishOrder q .fire).HasOrder a o r bin := by
  obtain ⟨hc, hbin⟩ := hs
  obtain ⟨hcurrent, hentry⟩ := currentOrder?_eq_some.1 hc
  refine ⟨currentOrder?_eq_some.2 ⟨?_, ?_⟩, (map_freed_finishOrder h r.bin).trans hbin⟩
  · rw [shuttle_finishOrder h, shuttle_dropCurrent, if_neg, hcurrent]
    rintro ⟨-, ho⟩
    exact hq (Option.some.inj (ho.symm.trans hcurrent))
  · rw [order?_finishOrder s h, if_neg hq, hentry]

theorem hasOrder_silenceShuttle (hs : s.HasOrder a o r bin) (b : Aisle) : (s.silenceShuttle b).HasOrder a o r bin := by
  obtain ⟨hc, hbin⟩ := hs
  obtain ⟨w, hw⟩ := silenceShuttle_frame s b
  refine ⟨(currentOrder?_silenceShuttle s b a).trans hc, ?_⟩
  rw [hw]
  exact hbin

theorem letGo_silenceShuttle (hs : s.LetGo a o r bin) (b : Aisle) : (s.silenceShuttle b).LetGo a o r bin := by
  obtain ⟨hentry, hbin, hcurrent⟩ := hs
  obtain ⟨w, hw⟩ := silenceShuttle_frame s b
  rw [hw]
  refine ⟨hentry, hbin, fun ha => ?_⟩
  have hshuttle := shuttle_putShuttle s b a (s.shuttle b).silenced
  refine (congrArg Shuttle.order hshuttle).trans ?_
  split
  · rename_i h
    subst h
    exact hcurrent ha
  · exact hcurrent ha

theorem letGo_sealShuttle (hs : s.LetGo a o r bin) (b : Aisle) : (s.sealShuttle b).LetGo a o r bin := by
  have hsilence := letGo_silenceShuttle hs b
  obtain h | ⟨q, r', hq, h⟩ := sealShuttle_cases s b
  · rwa [h]
  · rw [h]
    exact letGo_finishOrder hsilence hq

theorem hasOrder_sealShuttle (hs : s.HasOrder a o r bin) (b : Aisle) :
    (s.sealShuttle b).HasOrder a o r bin ∨ (s.sealShuttle b).LetGo a o r bin := by
  have hsilence := hasOrder_silenceShuttle hs b
  obtain h | ⟨q, r', hq, h⟩ := sealShuttle_cases s b
  · exact .inl (by rwa [h])
  · by_cases hqo : q = o
    · subst hqo
      exact .inr (by rw [h]; exact letGo_of_hasOrder hsilence)
    · exact .inl (by rw [h]; exact hasOrder_finishOrder hsilence hq hqo)

/-- A shuttle's own turn lets its order go, whether or not another shuttle's turn has done so. -/
theorem sealShuttle_letsGo (hs : s.HasOrder a o r bin ∨ s.LetGo a o r bin) : (s.sealShuttle a).LetGo a o r bin := by
  obtain hs | hs := hs
  · rw [sealShuttle_with hs.1]
    exact letGo_of_hasOrder (hasOrder_silenceShuttle hs a)
  · exact letGo_sealShuttle hs a

/-! ## The walk over the zone -/

/-- A zone's record in SEALED, with the latch: what entering SEALED does in every zone (R142, R148, R149). -/
def State.zoneSealed (z : ZoneNo) (s : State) : State := (s.setZoneState z .sealed).latch .zoneSealed

theorem sealZone_aisles (h : z ≠ frontHall) :
    s.sealZone z = (shuttlesOf z).foldl (fun s a => s.sealShuttle a) (s.zoneSealed z) := if_neg h

theorem sealZone_hall (s : State) : s.sealZone frontHall = (s.zoneSealed frontHall).strand := by
  simp only [State.sealZone, State.zoneSealed, if_true]

theorem strand_frame (s : State) : ∃ v, s.strand = { s with tab.bins := v } := by
  unfold State.strand
  split
  · split
    · exact ⟨_, rfl⟩
    · exact ⟨_, rfl⟩
  · exact ⟨_, rfl⟩

/-- The zones' records and the attention block as entering SEALED leaves them: what follows touches neither. -/
theorem sealZone_records (s : State) (z : ZoneNo) :
    (s.sealZone z).fiu = (s.zoneSealed z).fiu ∧ (s.sealZone z).au = (s.zoneSealed z).au := by
  by_cases h : z = frontHall
  · subst h
    obtain ⟨v, hv⟩ := strand_frame (s.zoneSealed frontHall)
    rw [sealZone_hall, hv]
    exact ⟨rfl, rfl⟩
  · have hwalk := foldl_reads (fun u : State => (u.fiu, u.au)) beyond_sealShuttle (shuttlesOf z) (s.zoneSealed z)
    rw [← sealZone_aisles h] at hwalk
    exact Prod.mk.inj hwalk

theorem zone_sealZone (s : State) (z : ZoneNo) : (s.sealZone z).zone z = { s.zone z with state := .sealed, clr := true } :=
  (zone_of_fiu (sealZone_records s z).1 z).trans (zone_setZoneState_self s z .sealed)

theorem latchSet_sealZone (s : State) (z : ZoneNo) : (s.sealZone z).latchSet .zoneSealed :=
  latchSet_of_au (sealZone_records s z).2 (latchSet_latch_self (s := s.setZoneState z .sealed) .zoneSealed)

theorem fault_sealZone (s : State) (z : ZoneNo) : (s.sealZone z).au.fault = s.au.fault :=
  (congrArg AttentionUnit.fault (sealZone_records s z).2).trans rfl

section
variable (ha : zoneOf a = z)
include ha

/-- The shuttle's record as the sealing leaves it, apart from its current order, and its empty slot. -/
theorem sealZone_silences (s : State) :
    ((s.sealZone z).shuttle a).apart = (s.shuttle a).silenced.apart ∧ (s.sealZone z).slot a = none := by
  rw [sealZone_aisles (ne_frontHall_of_zoneOf ha)]
  obtain ⟨u, hu, ht⟩ := foldl_reads_turn (f := fun s a => s.sealShuttle a) (fun u : State => ((u.shuttle a).apart, u.slot a))
    (fun u b hb => link_sealShuttle_ne u hb) (nodup_shuttlesOf z) (mem_shuttlesOf.2 ha) (s.zoneSealed z)
  obtain ⟨hrecord, hslot⟩ := Prod.mk.inj ht
  obtain ⟨hsilenced, hempty⟩ := sealShuttle_silences u a
  refine ⟨hrecord.trans (hsilenced.trans ?_), hslot.trans hempty⟩
  have happart : (u.shuttle a).apart = (s.shuttle a).apart := congrArg Prod.fst hu
  exact congrArg Shuttle.silenced happart

theorem letGo_sealZone (hc : s.currentOrder? a = some (o, r)) : (s.sealZone z).LetGo a o r (s.binRec? r.bin) := by
  rw [sealZone_aisles (ne_frontHall_of_zoneOf ha)]
  exact foldl_turn (f := fun s a => s.sealShuttle a)
    (P := fun u => u.HasOrder a o r (s.binRec? r.bin) ∨ u.LetGo a o r (s.binRec? r.bin))
    (fun u b _ hu => hu.elim (fun h => hasOrder_sealShuttle h b) fun h => .inr (letGo_sealShuttle h b))
    (fun u hu => sealShuttle_letsGo hu) (fun u b _ hu => letGo_sealShuttle hu b) (nodup_shuttlesOf z) (mem_shuttlesOf.2 ha)
    (.inl ⟨hc, rfl⟩)

end

/-- The answer of an exchange with a shuttle of the walk is to be discarded (R85). -/
theorem exchange_sealShuttles : ∀ (l : List Aisle) (s : State), (l.foldl (fun s a => s.sealShuttle a) s).alc.exchange =
    s.alc.exchange.map fun x => if x.shuttle ∈ l then { x with use := .discard } else x
  | [], s => by simp
  | a :: l, s => by
    rw [List.foldl_cons, exchange_sealShuttles l, exchange_sealShuttle, Option.map_map]
    refine congrArg (Option.map · s.alc.exchange) (funext fun x => ?_)
    by_cases hx : x.shuttle = a
    · simp [Exchange.limit, hx]
    · simp [Exchange.limit, hx]

theorem exchange_sealZone (s : State) (z : ZoneNo) : (s.sealZone z).alc.exchange =
    s.alc.exchange.map fun x => if zoneOf x.shuttle = z then { x with use := .discard } else x := by
  by_cases h : z = frontHall
  · subst h
    obtain ⟨v, hv⟩ := strand_frame (s.zoneSealed frontHall)
    rw [sealZone_hall, hv]
    simp only [zoneOf_ne_frontHall, if_false, Option.map_id']
    rfl
  · rw [sealZone_aisles h, exchange_sealShuttles]
    simp only [mem_shuttlesOf]
    rfl

/-- The bin of a kept crossing is STRANDED (R149). -/
theorem binRec?_sealZone_hall {c : Crossing} (hc : s.lc.crossing = some c) (hst : c.state = .stopped) :
    (s.sealZone frontHall).binRec? c.bin = (s.binRec? c.bin).map fun x => { x with place := .stranded } := by
  have hstrand : (s.zoneSealed frontHall).strand = (s.zoneSealed frontHall).setPlace c.bin .stranded := by
    have hc' : (s.zoneSealed frontHall).lc.crossing = some c := hc
    simp only [State.strand, hc', hst, if_true]
  rw [sealZone_hall, hstrand, State.setPlace, binRec?_changeBin, if_pos rfl]
  rfl

end Sys2Proof.Machine
end

section
/-! When a zone seals: its condition, and the expiry of its deadline (R146, R147). -/
namespace Sys2Proof.Machine

variable {s : State} {a b : Aisle} {z : ZoneNo}

/-! ## The sealing condition -/

theorem moving_iff : s.Moving a ↔ (s.shuttle a).state.atRest = false := by
  unfold State.Moving
  cases (s.shuttle a).state <;> simp [ShuttleState.atRest]

theorem sealable_aisles (h : z ≠ frontHall) : s.sealable z = true ↔ ∀ a, zoneOf a = z → (s.shuttle a).state = .parked
    ∨ (s.shuttle a).state = .caught ∨ (s.shuttle a).state = .offline ∨ (s.shuttle a).state = .faulted := by
  simp only [State.sealable, if_neg h, State.shuttlesAtRest, List.all_eq_true, mem_shuttlesOf, atRest_iff]
  exact forall₂_congr fun a _ => by tauto

theorem reachesPort_eq_false : s.reachesPort a = false ↔ ∀ c, (s.shuttle a).command = some c → c.motion.atPort = true →
    c.mark = .sent ∧ s.commandExchange a = false := by
  unfold State.reachesPort
  cases (s.shuttle a).command with
  | none => simp
  | some c => cases hm : c.motion.atPort <;> simp [hm]

theorem sealable_hall : s.sealable frontHall = true ↔ ∀ a c, (s.shuttle a).command = some c → c.motion.atPort = true →
    c.mark = .sent ∧ s.commandExchange a = false := by
  simp only [State.sealable, if_true, List.all_eq_true, mem_aisles, forall_const, Bool.not_eq_true', reachesPort_eq_false]

theorem trySeal_seals (ha : s.zoneAlarm z = true) (hs : s.sealable z = true) : s.trySeal z = s.sealZone z := by
  simp only [State.trySeal, ha, hs, Bool.and_self, if_true]

theorem trySeal_waits (h : s.zoneAlarm z = false ∨ s.sealable z = false) : s.trySeal z = s := by
  refine if_neg ?_
  rw [Bool.and_eq_true]
  rintro ⟨ha, hs⟩
  obtain h | h := h
  · rw [h] at ha
    cases ha
  · rw [h] at hs
    cases hs

/-! ## The expiry (R146) -/

theorem exec_zoneDeadlineExpiry (hp : s.phase = .running) (z : ZoneNo) :
    exec (.zoneDeadlineExpiry z) s = .next (s.takeZoneExpiry z) :=
  congrArg _ (whenRunning_of_running hp (State.takeZoneExpiry z))

theorem takeZoneExpiry_alarm (h : s.zoneAlarm z = true) : s.takeZoneExpiry z = (s.expireZone z).settle := by
  simp only [State.takeZoneExpiry, h, if_true]

theorem takeZoneExpiry_other (h : s.zoneAlarm z = false) : s.takeZoneExpiry z = s := by
  simp only [State.takeZoneExpiry, h, Bool.false_eq_true, if_false]

theorem catchShuttle_moving (h : s.Moving a) : s.catchShuttle a =
    (s.capture (s.shuttleCapture .caught a none)).putShuttle a { s.shuttle a with state := .caught } := by
  simp only [State.catchShuttle, moving_iff.1 h, Bool.false_eq_true, if_false]
  rfl

theorem catchShuttle_resting (h : ¬ s.Moving a) : s.catchShuttle a = s :=
  if_pos (by simpa [moving_iff] using h)

theorem shuttle_catchShuttle (h : s.Moving a) : (s.catchShuttle a).shuttle a = { s.shuttle a with state := .caught } := by
  rw [catchShuttle_moving h]
  exact shuttle_putShuttle_self _ a _

theorem fault_catchShuttle (h : s.Moving a) :
    (s.catchShuttle a).au.fault = some (captured (s.shuttleCapture .caught a none) s.au.fault) := by
  rw [catchShuttle_moving h]
  rfl

theorem shuttle_catchShuttle_ne (s : State) (h : b ≠ a) : (s.catchShuttle b).shuttle a = s.shuttle a := by
  by_cases hb : s.Moving b
  · rw [catchShuttle_moving hb, shuttle_putShuttle, if_neg h]
    rfl
  · rw [catchShuttle_resting hb]

theorem fiu_catchShuttle (s : State) (a : Aisle) : (s.catchShuttle a).fiu = s.fiu := by
  by_cases ha : s.Moving a
  · rw [catchShuttle_moving ha]
    rfl
  · rw [catchShuttle_resting ha]

/-- The shuttles of the zone caught, before the zone seals. -/
def State.catchZone (z : ZoneNo) (s : State) : State := (shuttlesOf z).foldl (fun s a => s.catchShuttle a) s

theorem expireZone_eq (s : State) (z : ZoneNo) : s.expireZone z = (s.catchZone z).sealZone z := rfl

theorem zone_catchZone (s : State) (z w : ZoneNo) : (s.catchZone z).zone w = s.zone w :=
  zone_of_fiu (foldl_reads State.fiu fiu_catchShuttle (shuttlesOf z) s) w

/-- What the record holds after captures of CAUGHT alone: a CAUGHT, if it was EMPTY before them (R175). -/
def FirstCaught (before : Option FaultRecord) (s : State) : Prop :=
  ∀ f, s.au.fault = some f → before = none → f.first.kind = .caught

theorem firstCaught_catchShuttle {before : Option FaultRecord} (hs : FirstCaught before s) (a : Aisle) :
    FirstCaught before (s.catchShuttle a) := by
  by_cases h : s.Moving a
  · intro f hf hbefore
    rw [fault_catchShuttle h] at hf
    obtain rfl := Option.some.inj hf
    cases hs' : s.au.fault with
    | none => rw [shuttleCapture_eq]; rfl
    | some g => exact hs g hs' hbefore
  · rwa [catchShuttle_resting h]

theorem isSome_fault_catchShuttle (hs : s.au.fault.isSome = true) (a : Aisle) : (s.catchShuttle a).au.fault.isSome = true := by
  by_cases h : s.Moving a
  · rw [fault_catchShuttle h]
    rfl
  · rwa [catchShuttle_resting h]

section
variable (ha : zoneOf a = z)
include ha

theorem shuttle_catchZone_moving (h : s.Moving a) : (s.catchZone z).shuttle a = { s.shuttle a with state := .caught } := by
  obtain ⟨u, hu, ht⟩ := foldl_reads_turn (f := fun s a => s.catchShuttle a) (State.shuttle · a)
    (fun u b hb => shuttle_catchShuttle_ne u hb) (nodup_shuttlesOf z) (mem_shuttlesOf.2 ha) s
  have hshuttle : u.shuttle a = s.shuttle a := hu
  rw [← hshuttle]
  refine Eq.trans ht (shuttle_catchShuttle ?_)
  rwa [State.Moving, hshuttle]

theorem shuttle_catchZone_resting (h : ¬ s.Moving a) : (s.catchZone z).shuttle a = s.shuttle a := by
  obtain ⟨u, hu, ht⟩ := foldl_reads_turn (f := fun s a => s.catchShuttle a) (State.shuttle · a)
    (fun u b hb => shuttle_catchShuttle_ne u hb) (nodup_shuttlesOf z) (mem_shuttlesOf.2 ha) s
  have hshuttle : u.shuttle a = s.shuttle a := hu
  have hrest : u.catchShuttle a = u := catchShuttle_resting (by rwa [State.Moving, hshuttle])
  rw [hrest] at ht
  exact Eq.trans ht hu

/-- Once a shuttle is caught the record is FULL, and holds a CAUGHT if it was EMPTY (R146, R175). -/
theorem fault_catchZone (h : s.Moving a) :
    ∃ f, (s.catchZone z).au.fault = some f ∧ (s.au.fault = none → f.first.kind = .caught) := by
  have hwalk : FirstCaught s.au.fault (s.catchZone z) ∧ (s.catchZone z).au.fault.isSome = true := foldl_turn
    (f := fun s a => s.catchShuttle a)
    (P := fun u => FirstCaught s.au.fault u ∧ u.shuttle a = s.shuttle a)
    (Q := fun u => FirstCaught s.au.fault u ∧ u.au.fault.isSome = true)
    (fun u b hb ⟨hu, hshuttle⟩ => ⟨firstCaught_catchShuttle hu b, (shuttle_catchShuttle_ne u hb).trans hshuttle⟩)
    (fun u ⟨hu, hshuttle⟩ => ⟨firstCaught_catchShuttle hu a, by
      rw [fault_catchShuttle (by rwa [State.Moving, hshuttle])]
      rfl⟩)
    (fun u b _ ⟨hu, hfull⟩ => ⟨firstCaught_catchShuttle hu b, isSome_fault_catchShuttle hfull b⟩)
    (nodup_shuttlesOf z) (mem_shuttlesOf.2 ha) ⟨fun f hf hnone => absurd (hf.symm.trans hnone) (Option.some_ne_none f), rfl⟩
  obtain ⟨hfirst, hfull⟩ := hwalk
  obtain ⟨f, hf⟩ := Option.isSome_iff_exists.1 hfull
  exact ⟨f, hf, hfirst f hf⟩

theorem state_expireZone (s : State) : ((s.expireZone z).shuttle a).state = ((s.catchZone z).shuttle a).state :=
  (congrArg Shuttle.state (sealZone_silences ha (s.catchZone z)).1 :)

end

/-- Settles O46: the condition and the expiry, and what sealing does, shuttle by shuttle. -/
theorem zoneSealsByConditionOrDeadline : Obligations.ZoneSealsByConditionOrDeadline := by
  refine fun s z => ⟨fun hp => ⟨fun h => ?expiry, fun h => ?noExpiry⟩, sealable_aisles,
    sealable_hall, trySeal_seals, trySeal_waits, ⟨zone_sealZone s z, latchSet_sealZone s z, fun a ha => ?silenced,
      fun x hx => ?exchange, fun hx => ?noExchange, fun hz c hc hst => ?stranded⟩, fun a => ⟨fun h => ?caught,
      fun hidle hbusy => catchShuttle_resting (not_or.2 ⟨hidle, hbusy⟩)⟩, rfl, ?zone, fun a ha => ⟨fun h => ?expired,
      fun hidle hbusy => ?rests⟩⟩
  case expiry => rw [exec_zoneDeadlineExpiry hp, takeZoneExpiry_alarm h]
  case noExpiry => rw [exec_zoneDeadlineExpiry hp, takeZoneExpiry_other h]
  case silenced =>
    obtain ⟨hrecord, hslot⟩ := sealZone_silences ha s
    exact ⟨hslot, congrArg Shuttle.command hrecord, congrArg Shuttle.deadline hrecord, (congrArg Shuttle.state hrecord :),
      (congrArg Shuttle.carried hrecord :), fun o r hc => letGo_sealZone ha hc⟩
  case exchange => rw [exchange_sealZone, hx, Option.map_some]
  case noExchange => rw [exchange_sealZone, hx, Option.map_none]
  case stranded =>
    obtain rfl : z = frontHall := hz
    exact binRec?_sealZone_hall hc hst
  case caught =>
    exact ⟨shuttle_catchShuttle h, (fault_catchShuttle h).trans
      (congrArg (fun c => some (captured c s.au.fault)) (shuttleCapture_eq .caught a none))⟩
  case zone => rw [expireZone_eq, zone_sealZone, zone_catchZone]
  case expired =>
    obtain ⟨f, hf, hfirst⟩ := fault_catchZone ha h
    refine ⟨?_, f, (fault_sealZone _ z).trans hf, hfirst⟩
    rw [state_expireZone ha, shuttle_catchZone_moving ha h]
  case rests => rw [state_expireZone ha, shuttle_catchZone_resting ha (not_or.2 ⟨hidle, hbusy⟩)]

end Sys2Proof.Machine
end

section
/-! A release: its three writes, and the zone in RECOVERY (R150 to R152, R155). -/
namespace Sys2Proof.Machine

variable {s : State} {a b : Aisle} {z : ZoneNo} {v : Word}

/-! ## The three writes (R150) -/

theorem exec_releaseWrite (hw : s.windowFree = true) (v : Word) : exec (.releaseWrite v) s = .next (s.judgeRelease v) :=
  congrArg _ (if_pos hw)

/-- The window after a write that the progress does not ask for (R150). -/
def State.releaseRefused (s : State) : State := { s with win.release := .none, win.code := .sequenceRefused }

theorem judgeRelease_begins (h : s.win.release = .none) (hv : v.toNat = z.val) :
    s.judgeRelease v = { s with win.release := .first z, win.code := .ok } := by
  simp only [State.judgeRelease, h, index?_of_eq hv]

theorem judgeRelease_none_bad (h : s.win.release = .none) (hv : 3 < v.toNat) : s.judgeRelease v = s.releaseRefused := by
  simp only [State.judgeRelease, h, index?_of_le (Nat.succ_le_of_lt hv), State.releaseRefused]

theorem judgeRelease_second (h : s.win.release = .first z) (hv : v.toNat = 0xFFFF - z.val) :
    s.judgeRelease v = { s with win.release := .second z, win.code := .ok } := by
  simp only [State.judgeRelease, h, if_pos hv]

theorem judgeRelease_first_bad (h : s.win.release = .first z) (hv : v.toNat ≠ 0xFFFF - z.val) :
    s.judgeRelease v = s.releaseRefused := by
  simp only [State.judgeRelease, h, if_neg hv, State.releaseRefused]

theorem judgeRelease_releases (h : s.win.release = .second z) (hv : v.toNat = z.val) (hz : s.zoneState z = .sealed)
    (hline : (s.zone z).line = false) : s.judgeRelease v =
      (State.releaseZone z { s with win.release := .none, win.code := .zoneReleased }).settle := by
  simp only [State.judgeRelease, h]
  exact if_pos ⟨hv, hz, hline⟩

theorem judgeRelease_second_bad (h : s.win.release = .second z)
    (hno : v.toNat ≠ z.val ∨ s.zoneState z ≠ .sealed ∨ (s.zone z).line = true) : s.judgeRelease v = s.releaseRefused := by
  simp only [State.judgeRelease, h]
  refine if_neg ?_
  rintro ⟨hv, hz, hline⟩
  obtain h | h | h := hno
  · exact h hv
  · exact h hz
  · rw [h] at hline
    cases hline

/-! ## The aisles' part (R152) -/

theorem releaseZone_aisles (h : z ≠ frontHall) :
    s.releaseZone z = (shuttlesOf z).foldl (fun s a => s.recoverShuttle a) (s.setZoneState z .recovery) := if_neg h

theorem releaseZone_hall (s : State) : s.releaseZone frontHall = (s.setZoneState frontHall .recovery).rerunLane := by
  simp only [State.releaseZone, if_true]

/-- A shuttle that a release finds at rest in its zone: PARKED or CAUGHT (R152). -/
def State.Stopped (s : State) (a : Aisle) : Prop := (s.shuttle a).state = .parked ∨ (s.shuttle a).state = .caught

theorem recoverShuttle_stopped (h : s.Stopped a) : s.recoverShuttle a =
    (s.putShuttle a { s.shuttle a with state := .parked }).setSlot a (some .revival) := by
  obtain h | h := h
  · have hself : s.putShuttle a { s.shuttle a with state := .parked } = s := by
      rw [← h]
      exact putShuttle_shuttle s a
    simp only [State.recoverShuttle, h, hself]
  · simp only [State.recoverShuttle, h]
    rfl

theorem recoverShuttle_other (h : ¬ s.Stopped a) : s.recoverShuttle a = s := by
  unfold State.recoverShuttle
  split
  · rename_i hst
    exact absurd (.inr hst) h
  · rename_i hst
    exact absurd (.inl hst) h
  · rfl

theorem fiu_recoverShuttle (s : State) (a : Aisle) : (s.recoverShuttle a).fiu = s.fiu := by
  by_cases h : s.Stopped a
  · rw [recoverShuttle_stopped h]
    rfl
  · rw [recoverShuttle_other h]

theorem link_recoverShuttle_ne (s : State) (h : b ≠ a) :
    ((s.recoverShuttle b).shuttle a, (s.recoverShuttle b).slot a) = (s.shuttle a, s.slot a) := by
  by_cases hb : s.Stopped b
  · rw [recoverShuttle_stopped hb]
    exact Prod.ext ((shuttle_putShuttle s b a _).trans (if_neg h)) ((slot_setSlot (s.putShuttle b _) b a _).trans (if_neg h))
  · rw [recoverShuttle_other hb]

section
variable (ha : zoneOf a = z)
include ha

/-- The turn of a shuttle, told of its record and its message in the state that was released. -/
theorem releaseZone_turn (s : State) : ∃ u : State, u.shuttle a = s.shuttle a ∧ u.slot a = s.slot a
    ∧ (s.releaseZone z).shuttle a = (u.recoverShuttle a).shuttle a
    ∧ (s.releaseZone z).slot a = (u.recoverShuttle a).slot a := by
  obtain ⟨u, hu, ht⟩ := foldl_reads_turn (f := fun s a => s.recoverShuttle a) (fun u : State => (u.shuttle a, u.slot a))
    (fun u b hb => link_recoverShuttle_ne u hb) (nodup_shuttlesOf z) (mem_shuttlesOf.2 ha) (s.setZoneState z .recovery)
  rw [← releaseZone_aisles (ne_frontHall_of_zoneOf ha)] at ht
  obtain ⟨hshuttle, hslot⟩ := Prod.mk.inj hu
  obtain ⟨hshuttle', hslot'⟩ := Prod.mk.inj ht
  exact ⟨u, hshuttle, hslot, hshuttle', hslot'⟩

theorem releaseZone_stopped (h : s.Stopped a) :
    ((s.releaseZone z).shuttle a).state = .parked ∧ (s.releaseZone z).slot a = some .revival := by
  obtain ⟨u, hshuttle, -, ht, hslot⟩ := releaseZone_turn ha s
  rw [ht, hslot, recoverShuttle_stopped (by rwa [State.Stopped, hshuttle])]
  exact ⟨congrArg Shuttle.state (shuttle_putShuttle_self u a _), slot_setSlot_self _ a _⟩

theorem releaseZone_other (h : ¬ s.Stopped a) :
    (s.releaseZone z).shuttle a = s.shuttle a ∧ (s.releaseZone z).slot a = s.slot a := by
  obtain ⟨u, hshuttle, hmessage, ht, hslot⟩ := releaseZone_turn ha s
  rw [ht, hslot, recoverShuttle_other (by rwa [State.Stopped, hshuttle])]
  exact ⟨hshuttle, hmessage⟩

end

/-! ## The front hall's part (R97, R155) -/

/-- A STRANDED bin is in its crossing again (R97). -/
def BinRec.unstranded (x : BinRec) : BinRec := if x.place = .stranded then { x with place := .crossing } else x

/-- All that the re-run of a kept crossing changes (R97). -/
theorem rerunLane_stopped {c : Crossing} (hc : s.lc.crossing = some c) (hst : c.state = .stopped) :
    s.rerunLane = State.changeBin c.bin BinRec.unstranded { s with
      lc.lstop := false
      lc.crossing := some { c with state := .running 30 }
      lc.lsrc := BitVec.ofNat 4 c.source.code
      lc.ldst := BitVec.ofNat 4 c.dest.code
      lc.lgoPulses := s.lc.lgoPulses + 1 } := by
  simp only [State.rerunLane, hc, hst, if_true]
  rfl

theorem rerunLane_frame (s : State) : s.rerunLane.fiu = s.fiu ∧ s.rerunLane.lc.lstop = false := by
  simp only [State.rerunLane]
  split
  · split
    · exact ⟨rfl, rfl⟩
    · exact ⟨rfl, rfl⟩
  · exact ⟨rfl, rfl⟩

theorem zone_releaseZone (s : State) (z : ZoneNo) :
    (s.releaseZone z).zone z = { s.zone z with state := .recovery, clr := false } := by
  have hfiu : (s.releaseZone z).fiu = (s.setZoneState z .recovery).fiu := by
    by_cases h : z = frontHall
    · subst h
      rw [releaseZone_hall]
      exact (rerunLane_frame _).1
    · rw [releaseZone_aisles h]
      exact foldl_reads State.fiu fiu_recoverShuttle (shuttlesOf z) _
  exact (zone_of_fiu hfiu z).trans (zone_setZoneState_self s z .recovery)

theorem lstop_releaseZone_hall (s : State) : (s.releaseZone frontHall).lc.lstop = false := by
  rw [releaseZone_hall]
  exact (rerunLane_frame _).2

/-- A kept crossing runs again, and its bin is no longer STRANDED (R97, R155). -/
theorem releaseZone_hall_reruns {c : Crossing} (hc : s.lc.crossing = some c) (hst : c.state = .stopped) :
    (s.releaseZone frontHall).lc = { s.lc with
        lstop := false
        crossing := some { c with state := .running 30 }
        lsrc := BitVec.ofNat 4 c.source.code
        ldst := BitVec.ofNat 4 c.dest.code
        lgoPulses := s.lc.lgoPulses + 1 }
      ∧ (s.releaseZone frontHall).binRec? c.bin = (s.binRec? c.bin).map BinRec.unstranded := by
  rw [releaseZone_hall, rerunLane_stopped (s := s.setZoneState frontHall .recovery) hc hst]
  exact ⟨rfl, (binRec?_changeBin _ c.bin c.bin _).trans (if_pos rfl)⟩

end Sys2Proof.Machine
end

section
/-! A zone's recovery (R154, R155). -/
namespace Sys2Proof.Machine

variable {s : State} {a : Aisle} {z : ZoneNo}

/-! ## What keeps a zone in RECOVERY -/

theorem revivalOut_eq_false : s.revivalOut a = false ↔ (s.shuttle a).revivalRetry = none ∧ s.slot a ≠ some .revival
    ∧ ∀ x, s.alc.exchange = some x → x.shuttle = a → x.kind ≠ .revival := by
  rw [State.revivalOut, Bool.or_eq_false_iff, Bool.or_eq_false_iff, Option.isSome_eq_false_iff, Option.isNone_iff_eq_none,
    decide_eq_false_iff_not, and_assoc]
  refine and_congr_right' (and_congr_right' ?_)
  split
  · rename_i b use sent hx
    simp [hx]
  · rename_i hno
    refine iff_of_true rfl ?_
    rintro ⟨b, k, use, sent⟩ hx - rfl
    exact hno b use sent hx

theorem restoreOut_eq_false : s.restoreOut a = false ↔ ∀ o r, s.order? o = some r → r.kind = .restore →
    r.source = .recovery → r.aisle = a → r.isFinished = true := by
  simp only [State.restoreOut, List.any_eq_false, mem_orderNumbers, forall_const]
  refine forall_congr' fun o => ?_
  cases s.order? o <;> simp

theorem aisleRecovered_iff : s.aisleRecovered a = true ↔ (s.shuttle a).state ≠ .parked ∧ (s.shuttle a).state ≠ .caught
    ∧ (s.shuttle a).revivalRetry = none ∧ s.slot a ≠ some .revival
    ∧ (∀ x, s.alc.exchange = some x → x.shuttle = a → x.kind ≠ .revival)
    ∧ (∀ o r, s.order? o = some r → r.kind = .restore → r.source = .recovery → r.aisle = a → r.isFinished = true)
    ∧ s.claims a.val = false := by
  simp only [State.aisleRecovered, Bool.and_eq_true, Bool.not_eq_true', decide_eq_true_eq, revivalOut_eq_false,
    restoreOut_eq_false, and_assoc]

theorem recovered_aisles (h : z ≠ frontHall) :
    s.recovered z = true ↔ ∀ a, zoneOf a = z → s.aisleRecovered a = true := by
  simp only [State.recovered, if_neg h, List.all_eq_true, mem_shuttlesOf]

theorem recovered_hall : s.recovered frontHall = true ↔ s.lc.crossing = none := by
  simp only [State.recovered, if_true, Option.isNone_iff_eq_none]

/-! ## The move to NORMAL -/

theorem tryRecover_waits (h : s.zoneState z ≠ .recovery ∨ s.recovered z = false) : s.tryRecover z = s := by
  refine if_neg ?_
  rw [Bool.and_eq_true, decide_eq_true_eq]
  rintro ⟨hz, hr⟩
  obtain h | h := h
  · exact h hz
  · rw [h] at hr
    cases hr

/-- A zone's record in NORMAL, with the latch (R154, R155). -/
def State.zoneRecovered (z : ZoneNo) (s : State) : State := (s.setZoneState z .normal).latch .zoneRecovered

section
variable (hz : s.zoneState z = .recovery) (hr : s.recovered z = true)
include hz hr

theorem tryRecover_recovers :
    s.tryRecover z = if z = frontHall then (s.zoneRecovered z).releaseStations else s.zoneRecovered z :=
  if_pos (by rw [hz, hr]; rfl)

theorem tryRecover_records :
    (s.tryRecover z).fiu = (s.zoneRecovered z).fiu ∧ (s.tryRecover z).au = (s.zoneRecovered z).au := by
  rw [tryRecover_recovers hz hr]
  split
  · exact ⟨rfl, rfl⟩
  · exact ⟨rfl, rfl⟩

theorem zoneState_tryRecover_recovers : (s.tryRecover z).zoneState z = .normal :=
  congrArg Zone.state ((zone_of_fiu (tryRecover_records hz hr).1 z).trans (zone_setZoneState_self s z .normal))

theorem latchSet_tryRecover_recovers : (s.tryRecover z).latchSet .zoneRecovered :=
  latchSet_of_au (tryRecover_records hz hr).2 (latchSet_latch_self (s := s.setZoneState z .normal) .zoneRecovered)

end

theorem stationState_tryRecover_hall (hz : s.zoneState frontHall = .recovery) (hr : s.recovered frontHall = true)
    (n : StationNo) : (s.tryRecover frontHall).stationState n = (s.stationState n).unheld := by
  rw [tryRecover_recovers hz hr, if_pos rfl]
  exact mapRow_getElem StationState.unheld s.su.states n.val n.isLt

/-- Settles O49: each write against the progress, what a release starts, and when a zone's recovery is done. -/
theorem releaseTakesThreeWrites : Obligations.ReleaseTakesThreeWrites := by
  refine ⟨fun s v hw => ?writes, fun s z => ⟨zone_releaseZone s z, fun a ha => ⟨releaseZone_stopped ha,
      fun hparked hcaught => releaseZone_other ha (not_or.2 ⟨hparked, hcaught⟩)⟩, fun hz => ?hall⟩,
    fun s z => ⟨fun h => ?aisles, recovered_hall, tryRecover_waits, fun hz hr => ⟨zoneState_tryRecover_recovers hz hr,
      latchSet_tryRecover_recovers hz hr, fun hhall n => ?stations⟩⟩⟩
  case writes =>
    rw [exec_releaseWrite hw]
    exact ⟨fun h => ⟨fun z hv => congrArg _ (judgeRelease_begins h hv), fun hv => congrArg _ (judgeRelease_none_bad h hv)⟩,
      fun z h => ⟨fun hv => congrArg _ (judgeRelease_second h hv), fun hv => congrArg _ (judgeRelease_first_bad h hv)⟩,
      fun z h => ⟨fun hv hz hline => congrArg _ (judgeRelease_releases h hv hz hline),
        fun hno => congrArg _ (judgeRelease_second_bad h hno)⟩⟩
  case hall =>
    obtain rfl : z = frontHall := hz
    refine ⟨lstop_releaseZone_hall s, fun c hc hst => ?_⟩
    obtain ⟨hlane, hbin⟩ := releaseZone_hall_reruns hc hst
    refine ⟨?_, ?_, ?_, ?_, fun r hr hstranded => ?_⟩
    · rw [hlane]
    · rw [hlane]
    · rw [hlane]
    · rw [hlane]
    · rw [hbin, hr, Option.map_some, BinRec.unstranded, if_pos hstranded]
  case aisles => exact (recovered_aisles h).trans (forall₂_congr fun a _ => aisleRecovered_iff)
  case stations =>
    obtain rfl : z = frontHall := hhall
    rw [stationState_tryRecover_hall hz hr]
    cases s.stationState n with
    | fireHeld remembered => cases remembered <;> rfl
    | _ => rfl

end Sys2Proof.Machine
end

section
/-! SET DEADLINE and READ ZONE (R157, R158). -/
namespace Sys2Proof.Machine

variable {s : State} {z : ZoneNo}

/-! ## SET DEADLINE (R157) -/

section
variable (hw : s.windowFree = true)
include hw

theorem judged_setDeadline (h : s.operands.cell 0 = z.val) : Judged s .setDeadline 0x60
    [(decide (10 ≤ s.operands.cell 1 ∧ s.operands.cell 1 ≤ 240), .badOperand), (decide (s.zoneState z = .normal), .wrongState)]
    (State.requestDone 0x60 .ok { a0 := word s.tab.deadlines[z] }
      { s with tab.deadlines := s.tab.deadlines.set z (s.operands.cell 1) }) := by
  refine judged_of_checkedReply (e := setDeadline)
    (t := { s.storeRequest 0x60 with tab.deadlines := s.tab.deadlines.set z (s.operands.cell 1) }) rfl hw ?_ rfl
  have hzone : (s.storeRequest 0x60).zoneNormal z = decide (s.zoneState z = .normal) := rfl
  simp only [setDeadline, index?_of_eq h, hzone]
  by_cases hrange : 10 ≤ s.operands.cell 1 ∧ s.operands.cell 1 ≤ 240
  · by_cases hnormal : s.zoneState z = .normal
    · simp only [if_pos hrange, decide_eq_true hrange, decide_eq_true hnormal]
      rfl
    · simp only [if_pos hrange, decide_eq_true hrange, decide_eq_false hnormal]
      rfl
  · simp only [if_neg hrange, decide_eq_false hrange]
    rfl

theorem exec_setDeadline_bad (h : 3 < s.operands.cell 0) :
    exec .setDeadline s = .next (s.requestDone 0x60 .badOperand {}) :=
  next_refused (e := setDeadline) hw (by simp only [setDeadline, index?_of_le (Nat.succ_le_of_lt h)])

/-! ## READ ZONE (R158) -/

theorem exec_readZone (h : s.operands.cell 0 = z.val) :
    exec .readZone s = .next (s.requestDone 0x61 .ok (s.zoneAnswer z)) :=
  next_answered (e := readZone) (t := s.storeRequest 0x61) hw (by simp only [readZone, index?_of_eq h]; rfl)

theorem exec_readZone_bad (h : 3 < s.operands.cell 0) : exec .readZone s = .next (s.requestDone 0x61 .badOperand {}) :=
  next_refused (e := readZone) hw (by simp only [readZone, index?_of_le (Nat.succ_le_of_lt h)])

end

/-- The shuttles that keep an aisle zone from sealing: those IDLE or BUSY (R146, R158). -/
theorem zoneObstacles_aisles (s : State) (h : z ≠ frontHall) : s.zoneObstacles z = (aisles.filter fun a =>
    decide (zoneOf a = z) && decide ((s.shuttle a).state = .idle ∨ (s.shuttle a).state = .busy)).length := by
  have hmoving (a : Aisle) : (!(s.shuttle a).state.atRest) =
      decide ((s.shuttle a).state = .idle ∨ (s.shuttle a).state = .busy) := by
    cases (s.shuttle a).state <;> rfl
  simp only [State.zoneObstacles, if_neg h, shuttlesOf_eq_filter, List.filter_filter, hmoving, Bool.and_comm]

theorem crossingStopped_eq (s : State) : flagCode s.crossingStopped * 2 =
    match s.lc.crossing with | some c => if c.state = .stopped then 2 else 0 | none => 0 := by
  unfold State.crossingStopped
  cases s.lc.crossing with
  | none => rfl
  | some c => by_cases h : c.state = .stopped <;> simp [flagCode, h]

/-- What keeps zone 3 from sealing, and a crossing that is kept (R147, R158; log entry 31). -/
theorem zoneObstacles_hall (s : State) : s.zoneObstacles frontHall =
    flagCode s.crossingStopped * 2 + (if aisles.any s.reachesPort then 1 else 0) := by
  have hany : (!s.sealable frontHall) = aisles.any s.reachesPort := by
    simp [State.sealable, List.any_eq_not_all_not]
  simp only [State.zoneObstacles, if_true, hany, flagCode]

theorem wordOrNone_remaining (st : ZoneState) :
    wordOrNone st.remaining? = match st with | .alarm n => word n | _ => 0xFFFF := by
  cases st <;> rfl

theorem zoneFlags_eq (line clr : Bool) :
    flagCode line * 2 + flagCode clr = (if line then 2 else 0) + (if clr then 1 else 0) := by
  cases line <;> rfl

/-- The answer of READ ZONE, with what keeps the zone from sealing in A3 (R158, R182). -/
theorem zoneAnswer_eq {a3 : Word} (h : word (s.zoneObstacles z) = a3) : s.zoneAnswer z =
    { a0 := bytePair (s.zoneState z).code ((if (s.zone z).line then 2 else 0) + (if (s.zone z).clr then 1 else 0))
      a1 := word s.tab.deadlines[z]
      a2 := match s.zoneState z with | .alarm n => word n | _ => 0xFFFF
      a3 := a3 } := by
  rw [State.zoneAnswer, zoneFlags_eq, wordOrNone_remaining, h]

/-- Settles O47: SET DEADLINE by its two checks, the deadline an ALARM takes, and READ ZONE's answer cell by cell. -/
theorem zoneDeadlinesAreSetAndRead : Obligations.ZoneDeadlinesAreSetAndRead := by
  refine ⟨fun s hw => ⟨fun z h => judged_setDeadline hw h, exec_setDeadline_bad hw⟩, zoneState_enterAlarm,
    fun s hw => ⟨exec_readZone_bad hw, fun z h a3 haisles hhall => ?_⟩⟩
  have hobstacles : word (s.zoneObstacles z) = a3 := by
    by_cases hz : z = frontHall
    · subst hz
      exact (congrArg word ((zoneObstacles_hall s).trans (congrArg (· + _) (crossingStopped_eq s)))).trans (hhall rfl).symm
    · rw [haisles hz, zoneObstacles_aisles s hz]
  exact (exec_readZone hw h).trans
    (congrArg (fun x => (.next (s.requestDone 0x61 .ok x) : Result)) (zoneAnswer_eq hobstacles))

end Sys2Proof.Machine
end

section
/-! The cause to serve (R171, R173). -/
namespace Sys2Proof.Machine

variable {s : State} {c c' : Cause} {g : Group} {gs : List Group} {l : Nat}

/-! ## The causes of the groups -/

theorem mem_causes : c ∈ g.causes ↔ c.group = g := by
  cases g <;> cases c <;> decide

theorem group_mem_groups (c : Cause) : c.group ∈ groups := by
  cases c <;> decide

/-- The cause of a number (R171). -/
def causeOf? (n : Nat) : Option Cause := (groups.flatMap Group.causes)[n - 1]?

theorem causeOf?_number (c : Cause) : causeOf? c.number = some c := by
  cases c <;> rfl

theorem cause_eq_of_number (h : c.number = c'.number) : c = c' := by
  have hcause := causeOf?_number c
  rw [h, causeOf?_number] at hcause
  exact (Option.some.inj hcause).symm

/-- The groups stand in the order of their numbers. -/
theorem groups_ascend : groups.Pairwise fun g g' => ∀ c ∈ g.causes, ∀ c' ∈ g'.causes, c.number < c'.number := by
  decide

theorem causes_ascend (g : Group) : g.causes.Pairwise fun c c' => c.number ≤ c'.number := by
  cases g <;> decide

/-- The number of a cause as a cell: no cause reads as 0, and no two alike. -/
theorem word_number_ne_zero (c : Cause) : word c.number ≠ 0 := by
  cases c <;> decide

theorem word_number_inj : word c.number = word c'.number ↔ c = c' := by
  refine ⟨fun h => cause_eq_of_number ?_, fun h => by rw [h]⟩
  have below (c : Cause) : c.number % 2 ^ 16 = c.number := by cases c <;> rfl
  have hnat := congrArg BitVec.toNat h
  rwa [word, word, BitVec.toNat_ofNat, BitVec.toNat_ofNat, below, below] at hnat

/-! ## The first of a group, and the best of the groups -/

theorem firstSignalled_eq_none : s.firstSignalled g = none ↔ ∀ c, c.group = g → s.signalled c = false := by
  simp [State.firstSignalled, mem_causes]

theorem firstSignalled_some (h : s.firstSignalled g = some c) : c.group = g ∧ s.signalled c = true
    ∧ ∀ c', c'.group = g → s.signalled c' = true → c.number ≤ c'.number := by
  obtain ⟨hc, before, after, hsplit, hbefore⟩ := List.find?_eq_some_iff_append.1 h
  have hasc := causes_ascend g
  rw [hsplit, List.pairwise_append, List.pairwise_cons] at hasc
  obtain ⟨-, ⟨hafter, -⟩, -⟩ := hasc
  refine ⟨mem_causes.1 (hsplit ▸ by simp), hc, fun c' hg hc' => ?_⟩
  have hmem : c' ∈ before ++ c :: after := hsplit ▸ mem_causes.2 hg
  rw [List.mem_append, List.mem_cons] at hmem
  obtain hb | rfl | ha := hmem
  · simpa [hc'] using hbefore c' hb
  · exact le_rfl
  · exact hafter c' ha

/-- A cause goes before another: its group's level is higher, or the levels are equal and its number is not higher (R173). -/
def State.GoesBefore (s : State) (c c' : Cause) : Prop :=
  s.levelOf c'.group ≤ s.levelOf c.group ∧ (s.levelOf c'.group = s.levelOf c.group → c.number ≤ c'.number)

theorem State.GoesBefore.trans {c₁ c₂ c₃ : Cause} (h : s.GoesBefore c₁ c₂) (h' : s.GoesBefore c₂ c₃) : s.GoesBefore c₁ c₃ := by
  obtain ⟨hl, hn⟩ := h
  obtain ⟨hl', hn'⟩ := h'
  exact ⟨by omega, fun he => by omega⟩

theorem goesBefore_of_level_lt (h : s.levelOf c'.group < s.levelOf c.group) : s.GoesBefore c c' :=
  ⟨h.le, fun he => absurd he h.ne⟩

theorem State.GoesBefore.antisymm (h : s.GoesBefore c c') (h' : s.GoesBefore c' c) : c = c' := by
  obtain ⟨hl, hn⟩ := h
  obtain ⟨hl', hn'⟩ := h'
  exact cause_eq_of_number (by omega)

/-- A signalled cause of some groups that goes before every other signalled cause of theirs. -/
def State.BestOf (s : State) (gs : List Group) (c : Cause) : Prop :=
  c.group ∈ gs ∧ s.signalled c = true ∧ ∀ c', c'.group ∈ gs → s.signalled c' = true → s.GoesBefore c c'

theorem bestOf_first (h : s.firstSignalled g = some c) : s.BestOf [g] c := by
  obtain ⟨hg, hc, hfirst⟩ := firstSignalled_some h
  refine ⟨List.mem_singleton.2 hg, hc, fun c' hg' hc' => ?_⟩
  have hgroup := List.mem_singleton.1 hg'
  exact ⟨by rw [hg, hgroup], fun _ => hfirst c' hgroup hc'⟩

theorem bestOf_cons_left (h : s.BestOf [g] c) (hrest : ∀ c', c'.group ∈ gs → s.signalled c' = true → s.GoesBefore c c') :
    s.BestOf (g :: gs) c := by
  obtain ⟨hg, hc, hfirst⟩ := h
  refine ⟨List.mem_cons.2 (.inl (List.mem_singleton.1 hg)), hc, fun c' hg' hc' => ?_⟩
  obtain hhead | htail := List.mem_cons.1 hg'
  · exact hfirst c' (List.mem_singleton.2 hhead) hc'
  · exact hrest c' htail hc'

theorem bestOf_cons_right (h : s.BestOf gs c) (hhead : ∀ c', c'.group = g → s.signalled c' = true → s.GoesBefore c c') :
    s.BestOf (g :: gs) c := by
  obtain ⟨hg, hc, hbest⟩ := h
  refine ⟨List.mem_cons_of_mem g hg, hc, fun c' hg' hc' => ?_⟩
  obtain hfirst | htail := List.mem_cons.1 hg'
  · exact hhead c' hfirst hc'
  · exact hbest c' htail hc'

theorem bestCause_eq_none : ∀ {gs : List Group}, s.bestCause gs = none → ∀ c, c.group ∈ gs → s.signalled c = false
  | [], _, _, h => absurd h List.not_mem_nil
  | g :: gs, hnone, c, hmem => by
    unfold State.bestCause at hnone
    split at hnone
    case h_1 hfirst =>
      obtain hg | hg := List.mem_cons.1 hmem
      · exact firstSignalled_eq_none.1 hfirst c hg
      · exact bestCause_eq_none hnone c hg
    case h_2 => cases hnone
    case h_3 => split at hnone <;> cases hnone

/-- The cause that is kept for groups in the order of their numbers is the best of them, with the level of its group. -/
theorem bestCause_some (hasc : gs.Pairwise fun g g' => ∀ c ∈ g.causes, ∀ c' ∈ g'.causes, c.number < c'.number)
    (h : s.bestCause gs = some (l, c)) : l = s.levelOf c.group ∧ s.BestOf gs c := by
  induction gs generalizing l c with
  | nil => cases h
  | cons g gs ih =>
    obtain ⟨hahead, hasc⟩ := List.pairwise_cons.1 hasc
    unfold State.bestCause at h
    split at h
    case h_1 hfirst =>
      obtain ⟨hl, hbest⟩ := ih hasc h
      refine ⟨hl, bestOf_cons_right hbest fun c' hg hc' => ?_⟩
      rw [firstSignalled_eq_none.1 hfirst c' hg] at hc'
      cases hc'
    case h_2 d hfirst hrest =>
      obtain ⟨rfl, rfl⟩ := Prod.mk.inj (Option.some.inj h)
      have hd := bestOf_first hfirst
      refine ⟨by rw [List.mem_singleton.1 hd.1], bestOf_cons_left hd fun c' hg hc' => ?_⟩
      rw [bestCause_eq_none hrest c' hg] at hc'
      cases hc'
    case h_3 d m d' hfirst hrest =>
      have hd := bestOf_first hfirst
      have hg : d.group = g := List.mem_singleton.1 hd.1
      obtain ⟨rfl, hbest⟩ := ih hasc hrest
      split at h
      · rename_i hle
        obtain ⟨rfl, rfl⟩ := Prod.mk.inj (Option.some.inj h)
        have hbefore : s.GoesBefore d d' :=
          ⟨hg ▸ hle, fun _ => (hahead _ hbest.1 d (mem_causes.2 hg) d' (mem_causes.2 rfl)).le⟩
        exact ⟨by rw [hg], bestOf_cons_left hd fun c' hg' hc' => hbefore.trans (hbest.2.2 c' hg' hc')⟩
      · rename_i hlt
        obtain ⟨rfl, rfl⟩ := Prod.mk.inj (Option.some.inj h)
        have hbefore : s.GoesBefore d' d := goesBefore_of_level_lt (hg ▸ Nat.lt_of_not_le hlt)
        exact ⟨rfl, bestOf_cons_right hbest fun c' hg' hc' =>
          hbefore.trans (hd.2.2 c' (List.mem_singleton.2 hg') hc')⟩

/-! ## The CAUSE cell (R173, R169) -/

theorem causeNumber_of_starting (hp : s.phase = .starting) : s.causeNumber = 0 := if_pos hp

/-- While the part runs, CAUSE is 0 with no cause signalled, or the number of the best of them. -/
theorem causeNumber_cases (hp : s.phase = .running) : (s.causeNumber = 0 ∧ ∀ c, s.signalled c = false)
    ∨ ∃ c, s.causeNumber = c.number ∧ s.BestOf groups c := by
  rw [State.causeNumber, if_neg (by simp [hp])]
  cases hbest : s.bestCause groups with
  | none => exact .inl ⟨rfl, fun c => bestCause_eq_none hbest c (group_mem_groups c)⟩
  | some best => exact .inr ⟨best.2, rfl, (bestCause_some groups_ascend hbest).2⟩

theorem causeCell_eq_zero (hp : s.phase = .running) : word s.causeNumber = 0 ↔ ∀ c, s.signalled c = false := by
  obtain ⟨hnumber, hnone⟩ | ⟨c, hnumber, -, hc, -⟩ := causeNumber_cases hp
  · rw [hnumber]
    exact iff_of_true rfl hnone
  · rw [hnumber]
    exact iff_of_false (word_number_ne_zero c) fun hnone => by simp [hnone c] at hc

theorem causeCell_eq_number (hp : s.phase = .running) (c : Cause) :
    word s.causeNumber = word c.number ↔ s.signalled c = true ∧ ∀ c', s.signalled c' = true → s.GoesBefore c c' := by
  obtain ⟨hnumber, hnone⟩ | ⟨d, hnumber, -, hd, hbest⟩ := causeNumber_cases hp
  · rw [hnumber]
    exact iff_of_false (word_number_ne_zero c).symm fun ⟨hc, _⟩ => by simp [hnone c] at hc
  · rw [hnumber, word_number_inj]
    constructor
    · rintro rfl
      exact ⟨hd, fun c' => hbest c' (group_mem_groups c')⟩
    · rintro ⟨hc, hbefore⟩
      exact (hbest c (group_mem_groups c) hc).antisymm (hbefore d hd)

end Sys2Proof.Machine
end

section
/-! The cells of the window, as they read and as they are written (R161 to R164, R169). -/
namespace Sys2Proof.Machine

variable {s : State} {i : Instr} {n : Nat} {v : Word} {cell : BitVec 5}

/-! ## Writes that collide (R164, R169) -/

theorem writeRequest_busy (h : s.windowFree = false) (v : Word) : s.writeRequest v = s.collide := takeRequest_busy h v _

theorem writeRelease_busy (h : s.windowFree = false) (v : Word) : s.writeRelease v = s.collide :=
  if_neg (Bool.eq_false_iff.1 h)

theorem writeEnable_starting (hp : s.phase = .starting) (v : Word) : s.writeEnable v = s.collide := by
  simp only [State.writeEnable, hp]

theorem writeLevels_starting (hp : s.phase = .starting) (v : Word) : s.writeLevels v = s.collide := by
  simp only [State.writeLevels, hp]

theorem exec_request_busy (h : s.windowFree = false) (hi : requestCode? i = some n) : exec i s = .next s.collide := by
  obtain ⟨e, -, hexec⟩ := exec_request hi
  rw [hexec, takeRequest_busy h]

/-- The row of a REQUEST write while BUSY is set is a write to REQUEST in every state (log entry 20). -/
theorem exec_requestCollision (s : State) (v : Word) : exec (.requestCollision v) s = .next (s.writeRequest v) := by
  have hcollides (h : s.windowFree ≠ true) : s.collide = s.writeRequest v :=
    (writeRequest_busy (Bool.eq_false_iff.2 h) v).symm
  exact congrArg Host.Outcome.next (ite_eq_left_iff.2 hcollides)

/-! ## Writes of request codes (R163) -/

/-- The request rows, in the order of their codes (R182). -/
def requestRows : List Instr :=
  [.enrolBin, .retireBin, .setPlace, .readBin, .defineSegment, .readSegment, .readChanged, .clearChanged, .setDay,
    .setCategory, .readCategory, .enrolItem, .retireItem, .readItem, .enrolPatron, .retirePatron, .setPatronBlock,
    .readPatron, .readLoans, .fetch, .collect, .readOrder, .cancelOrder, .resumeOrder, .audit, .cancelAudit, .auditBin,
    .quiesce, .wake, .readShuttle, .reviveShuttle, .openStation, .closeStation, .setStation, .dismiss, .reclaimPlace,
    .readStation, .readLane, .pick, .putBack, .charge, .renew, .declareLost, .placeHold, .cancelHold, .returnItem,
    .placeDropped, .closePosition, .readDropList, .setDeadline, .readZone, .readFault, .clearFault, .resetController]

theorem requestRows_codes : requestRows.map requestCode? = definedCodes.map some := by decide

/-- A code that the request table evaluates is a defined one. -/
theorem mem_definedCodes_of_evaluation {e : Evaluation} (he : evaluationOf? n = some e) : n ∈ definedCodes := by
  unfold evaluationOf? at he
  split at he
  case h_55 => cases he
  all_goals decide

theorem evaluationOf?_undefined (h : ∀ i, requestCode? i ≠ some n) : evaluationOf? n = none := by
  cases he : evaluationOf? n with
  | none => rfl
  | some e =>
    have hmem : some n ∈ requestRows.map requestCode? :=
      requestRows_codes ▸ List.mem_map_of_mem (mem_definedCodes_of_evaluation he)
    obtain ⟨i, -, hi⟩ := List.mem_map.1 hmem
    exact absurd hi (h i)

theorem writeRequest_defined (hi : requestCode? i = some n) (hv : v.toNat = n) (s : State) :
    exec i s = .next (s.writeRequest v) := by
  obtain ⟨e, he, hexec⟩ := exec_request hi
  rw [hexec, State.writeRequest, hv, he, Option.getD_some, word, ← hv, BitVec.ofNat_toNat, BitVec.setWidth_eq]

theorem writeRequest_undefined (h : ∀ i, requestCode? i ≠ some v.toNat) (hw : s.windowFree = true) :
    s.writeRequest v = s.requestDone v .badOperand {} := by
  rw [State.writeRequest, evaluationOf?_undefined h]
  exact takeRequest_refused hw rfl

/-! ## Writes to the other cells (R162) -/

theorem writeCell_parameter (s : State) (k : Fin 6) (v : Word) :
    s.writeCell (BitVec.ofNat 5 (k.val + 3)) v = { s with win.p := s.win.p.set k v, win.release := .none } := by
  fin_cases k <;> rfl

/-- STATE, A0 to A3 and the view cells take nothing from a write. -/
theorem writeCell_readOnly
    (h : cell.toNat = 1 ∨ (9 ≤ cell.toNat ∧ cell.toNat ≤ 12) ∨ (17 ≤ cell.toNat ∧ cell.toNat ≤ 23)) (s : State) (v : Word) :
    s.writeCell cell v = s.breakRelease := by
  unfold State.writeCell
  split
  case h_13 => exact if_pos (by omega)
  all_goals omega

theorem writeCell_nowhere (h : 24 ≤ cell.toNat) (s : State) (v : Word) : s.writeCell cell v = s := by
  unfold State.writeCell
  split
  case h_13 => exact if_neg (by omega)
  all_goals omega

/-! ## What the cells read (R161, R178) -/

theorem readCell_parameter (s : State) (k : Fin 6) : s.readCell (BitVec.ofNat 5 (k.val + 3)) = s.win.p[k] := by
  fin_cases k <;> rfl

theorem stateCell_eq (w : Window) :
    w.stateCell = word ((if w.busy then 32768 else 0) + (if w.collided then 16384 else 0) + w.code.value) := by
  rw [Window.stateCell, flagCode, flagCode, ite_mul, ite_mul, Nat.one_mul, Nat.one_mul, Nat.zero_mul]

theorem readCell_enable (s : State) (k : Fin 16) : (s.readCell 14).getLsbD k.val = s.win.enable.getLsbD k.val := by
  rw [show s.readCell 14 = s.win.enable.setWidth 16 from rfl, BitVec.getLsbD_setWidth, decide_eq_true k.isLt, Bool.true_and]

theorem readCell_levels (s : State) (k : Fin 16) : (s.readCell 15).getLsbD k.val = s.win.levels.getLsbD k.val := by
  rw [show s.readCell 15 = s.win.levels.setWidth 16 from rfl, BitVec.getLsbD_setWidth, decide_eq_true k.isLt, Bool.true_and]

theorem readCell_release (s : State) : s.readCell 16 = s.win.release.cell := rfl

/-! ## The view cells (R106, R166, R169) -/

/-- A view cell, or a select that names no cell: read from the CONTEXT station once start-up has ended. -/
theorem readCell_view (h : 17 ≤ cell.toNat) (s : State) : s.readCell cell =
    if s.phase = .starting then 0
    else ((index? 5 s.win.context.toNat).map fun st => s.viewCell st cell.toNat).getD 0 := by
  unfold State.readCell
  split
  case h_18 =>
    cases index? 5 s.win.context.toNat <;> rfl
  all_goals omega

theorem readCell_view_starting (hp : s.phase = .starting) (h : 17 ≤ cell.toNat) : s.readCell cell = 0 := by
  rw [readCell_view h, if_pos hp]

section
variable (hp : s.phase = .running)
include hp

theorem readCell_view_beyond (hctx : 4 < s.win.context.toNat) (h : 17 ≤ cell.toNat) : s.readCell cell = 0 := by
  rw [readCell_view h, if_neg (by simp [hp]), index?_of_le (Nat.succ_le_of_lt hctx)]
  rfl

theorem readCell_view_station {st : StationNo} (hctx : s.win.context.toNat = st.val) (h : 17 ≤ cell.toNat) :
    s.readCell cell = s.viewCell st cell.toNat := by
  rw [readCell_view h, if_neg (by simp [hp]), index?_of_eq hctx]
  rfl

end

/-- A select of 24 to 31 names no cell (R162). -/
theorem readCell_nowhere (h : 24 ≤ cell.toNat) (s : State) : s.readCell cell = 0 := by
  have hview (st : StationNo) : s.viewCell st cell.toNat = 0 := by
    unfold State.viewCell
    split
    case h_8 => rfl
    all_goals omega
  rw [readCell_view (by omega)]
  split
  · rfl
  · cases index? 5 s.win.context.toNat with
    | none => rfl
    | some st => exact hview st

theorem stationState_viewCell (st : StationState) : st.viewCell = match st with
    | .closed => 0 | .opened => 1 | .fireHeld false => 2 | .fireHeld true => 6 := by
  cases st with
  | fireHeld remembered => cases remembered <;> rfl
  | _ => rfl

/-- The view of a pick station: its queue's head and length and its reserved places. -/
theorem viewCell_pickStation (s : State) (k : PickNo) :
    s.viewCell (pickStation k) 18 = binCell (s.presentationQueue k).head?
      ∧ s.viewCell (pickStation k) 19 = word (s.presentationQueue k).length
      ∧ s.viewCell (pickStation k) 20 = word (s.reserved k)
      ∧ s.viewCell (pickStation k) 22 = 0xFFFF ∧ s.viewCell (pickStation k) 23 = 0xFFFF := by
  have hne : pickStation k ≠ returnStation := fun h => absurd (congrArg Fin.val h) k.isLt.ne
  refine ⟨?_, ?_, ?_, if_neg hne, if_neg hne⟩
  all_goals simp only [State.viewCell, asPick?_pickStation, State.presented?]

/-- The view of the return station: its positions' bins. -/
theorem viewCell_returnStation (s : State) :
    s.viewCell returnStation 18 = 0xFFFF ∧ s.viewCell returnStation 19 = 0 ∧ s.viewCell returnStation 20 = 0
      ∧ s.viewCell returnStation 22 = binCell (s.position .intake).bin?
      ∧ s.viewCell returnStation 23 = binCell (s.position .hold).bin? := ⟨rfl, rfl, rfl, rfl, rfl⟩

/-! ## The obligations -/

/-- Settles O51: the writes to REQUEST, the writes to the other cells, then what every cell reads. -/
theorem windowCellsReadAndWrite : Obligations.WindowCellsReadAndWrite := by
  intro s v
  refine ⟨fun i n hi hv => ?defined, fun h hw => ?undefined, rfl, fun k => congrArg _ (writeCell_parameter s k v),
    fun cell h => congrArg _ (writeCell_readOnly h s v), fun cell h => ⟨congrArg _ (writeCell_nowhere h s v), readCell_nowhere h s⟩,
    rfl, rfl, rfl, rfl, rfl, stateCell_eq s.win, rfl, rfl, readCell_parameter s,
    fun k => ⟨readCell_enable s k, readCell_levels s k⟩, fun hp => ⟨causeCell_eq_zero hp, causeCell_eq_number hp⟩,
    fun hp => ⟨congrArg word (causeNumber_of_starting hp), fun cell => readCell_view_starting hp⟩, rfl, rfl, rfl, rfl,
    fun z => ?release, fun hp => ⟨fun hctx cell => readCell_view_beyond hp hctx, fun st hctx => ?station, fun k hctx => ?pick,
      fun hctx => ?returns⟩⟩
  case defined =>
    rw [writeRequest_defined hi hv, exec_requestCollision]
    exact ⟨rfl, rfl, rfl⟩
  case undefined =>
    have hdone : (.next (s.writeRequest v) : Result) = .next (s.requestDone v .badOperand {}) :=
      congrArg _ (writeRequest_undefined h hw)
    exact ⟨hdone, (exec_requestCollision s v).trans hdone, hdone⟩
  case release =>
    rw [readCell_release]
    exact ⟨fun h => by rw [h]; rfl, fun h => by rw [h]; rfl, fun h => by rw [h]; rfl⟩
  case station =>
    exact ⟨(readCell_view_station (cell := 17) hp hctx (by decide)).trans (stationState_viewCell _),
      (readCell_view_station (cell := 21) hp hctx (by decide)).trans (binCell_eq _)⟩
  case pick =>
    have hview (cell : BitVec 5) := readCell_view_station (cell := cell) (st := pickStation k) hp hctx
    obtain ⟨hhead, hlength, hreserved, hintake, hhold⟩ := viewCell_pickStation s k
    exact ⟨(hview 18 (by decide)).trans (hhead.trans (binCell_eq _)), (hview 19 (by decide)).trans hlength,
      (hview 20 (by decide)).trans hreserved, (hview 22 (by decide)).trans hintake, (hview 23 (by decide)).trans hhold⟩
  case returns =>
    have hview (cell : BitVec 5) := readCell_view_station (cell := cell) (st := returnStation) hp hctx
    obtain ⟨hhead, hlength, hreserved, hintake, hhold⟩ := viewCell_returnStation s
    exact ⟨(hview 18 (by decide)).trans hhead, (hview 19 (by decide)).trans hlength, (hview 20 (by decide)).trans hreserved,
      (hview 22 (by decide)).trans (hintake.trans (binCell_eq _)), (hview 23 (by decide)).trans (hhold.trans (binCell_eq _))⟩

/-- Settles O50: each write that collides, then what start-up ignores. -/
theorem busyWindowCollides : Obligations.BusyWindowCollides := by
  refine ⟨fun s v h => ⟨fun i n => exec_request_busy h, ?_, ?_, ?_, congrArg _ (writeRelease_busy h v)⟩,
    fun s v hp => ⟨congrArg _ (writeEnable_starting hp v), congrArg _ (writeLevels_starting hp v),
      fun cell => readCell_view_starting hp, fun z a chars i hi => ?events⟩⟩
  · exact congrArg _ (writeRequest_busy h v)
  · exact (exec_requestCollision s v).trans (congrArg _ (writeRequest_busy h v))
  · exact congrArg _ (writeRequest_busy h v)
  case events =>
    have ignored (f : State → State) : (.next (s.whenRunning f) : Result) = .next s :=
      congrArg _ (whenRunning_of_starting hp f)
    simp only [List.mem_cons, List.not_mem_nil, or_false] at hi
    rcases hi with rfl | rfl | rfl | rfl | rfl | rfl | rfl | rfl | rfl | rfl | rfl | rfl <;> exact ignored _

end Sys2Proof.Machine
end

section
/-! A refused request (R165): every evaluation refuses with its code alone, answers with a code that is no refusal, or waits with
BUSY set. -/
namespace Sys2Proof.Machine

variable {s t : State} {n : Nat} {e : Evaluation} {o : Operands}

/-- What a reply says of the request: only a refusal brings a refusing code, and a wait leaves BUSY set. -/
def Reply.RefusesAlone : Reply → Prop
  | .refuse _ => True
  | .answer c _ _ => c.refuses = false
  | .wait _ t => t.win.busy = true

theorem refusesAlone_cancelRunning (n : OrderNo) (r : Order) (st : RunStage) (s : State) :
    (s.cancelRunning n r st).RefusesAlone := by
  cases st <;> first | rfl | trivial

/-- Every request of the table refuses alone: its accepted replies carry OK or CANCEL_TAKEN. -/
theorem refusesAlone_evaluation (he : evaluationOf? n = some e) (o : Operands) (hs : s.win.busy = true) :
    (e o s).RefusesAlone := by
  unfold evaluationOf? at he
  split at he
  all_goals cases he
  all_goals
    simp only [enrolBin, retireBin, setPlace, readBin, defineSegment, readSegment, readChanged, clearChanged, setDay,
      setCategory, readCategory, enrolItem, retireItem, readItem, enrolPatron, retirePatron, setPatronBlock, readPatron,
      readLoans, fetch, collect, readOrder, cancelOrder, resumeOrder, audit, cancelAudit, auditBin, auditBinUnder, quiesce,
      wake, readShuttle, reviveShuttle, openStation, closeStation, setStation, dismiss, reclaimPlace, readStation, readLane,
      pick, putBack, charge, chargeUnder, renew, declareLost, placeHold, cancelHold, returnItem, placeDropped, closePosition,
      readDropList, setDeadline, readZone, readFault, clearFault, resetController, atContext, onPatron, onOrder, onShuttle,
      handlingAt, recordAt, dismissPresented, reclaimOut, reclaimStow, renewLoan, returnAccepted, placeAccepted]
    (repeat' split)
  all_goals first
    | exact True.intro
    | exact (rfl : Code.ok.refuses = false)
    | exact hs
    | exact refusesAlone_cancelRunning _ _ _ _

/-- A taken request that has ended refused has only stored its code and ended (R163, R165). -/
theorem takeRequest_ended_refused {code : Word} (hw : s.windowFree = true)
    (hreply : (e s.operands (s.storeRequest code)).RefusesAlone) (ht : s.takeRequest code e = t)
    (hend : t.win.busy = false) (hcode : t.win.code.refuses = true) : t = s.requestDone code t.win.code {} := by
  subst ht
  cases he : e s.operands (s.storeRequest code) with
  | refuse c =>
    rw [takeRequest_refused hw he]
    rfl
  | answer c a u =>
    rw [he] at hreply
    rw [takeRequest_answered hw he] at hcode
    exact absurd (hreply.symm.trans hcode) Bool.false_ne_true
  | wait k u =>
    rw [he] at hreply
    rw [takeRequest_waits hw he] at hend
    exact absurd (hend.symm.trans hreply) Bool.false_ne_true

/-- Settles O52: of the three replies only the refusal ends with a refusing code, and it keeps the state it was taken in. -/
theorem refusedRequestChangesWindowOnly : Obligations.RefusedRequestChangesWindowOnly := by
  intro s t i n hi hw hexec hend hcode
  obtain ⟨e, he, hrequest⟩ := exec_request hi
  rw [hrequest] at hexec
  cases hexec
  exact takeRequest_ended_refused hw (refusesAlone_evaluation he s.operands rfl) rfl hend hcode

end Sys2Proof.Machine
end

section
/-! Attention: which causes are pending, the ATTN line, and the writes to CAUSE, ENABLE and LEVELS (R171 to R174). -/
namespace Sys2Proof.Machine

variable {s t : State} {c : Cause}

/-! ## Pending causes (R171) -/

theorem pendingCause_event (h : c.isEvent = true) : s.pendingCause c = s.au.latches.getLsbD (c.number - 1) := by
  cases c with
  | faultCaptured | orderFinished | returnWaiting => cases h
  | _ => rfl

theorem pendingCause_faultCaptured : s.pendingCause .faultCaptured = true ↔ s.au.fault ≠ none :=
  Option.isSome_iff_ne_none

theorem isFinished_iff {r : Order} : r.isFinished = true ↔ ∃ out, r.stage = .finished out := by
  unfold Order.isFinished
  cases r.stage <;> simp

/-- ORDER_FINISHED is pending while an entry is FINISHED (R43). -/
theorem pendingCause_orderFinished :
    s.pendingCause .orderFinished = true ↔ ∃ o r out, s.order? o = some r ∧ r.stage = .finished out := by
  constructor
  · intro h
    obtain ⟨o, -, ho⟩ := List.any_eq_true.1 h
    cases hr : s.order? o with
    | none => simp [hr] at ho
    | some r =>
      simp only [hr] at ho
      obtain ⟨out, hout⟩ := isFinished_iff.1 ho
      exact ⟨o, r, out, hr, hout⟩
  · rintro ⟨o, r, out, hr, hout⟩
    exact orderFinishedPending_of_finished hr hout

theorem isPresented_iff {p : PosState} : p.isPresented = true ↔ ∃ b, p = .presented b := by
  cases p <;> simp [PosState.isPresented]

/-- RETURN_WAITING is pending while a dropped item's route position presents a bin (R139). -/
theorem pendingCause_returnWaiting : s.pendingCause .returnWaiting = true ↔ ∃ t ∈ s.dropList, ∃ i b, s.item? t = some i
    ∧ s.position (if i.holds = [] then .intake else .hold) = .presented b := by
  refine List.any_eq_true.trans (exists_congr fun t => and_congr_right fun _ => ?_)
  cases hi : s.item? t with
  | none => simp
  | some i => simp [isPresented_iff, routeOf]

theorem signalled_iff :
    s.signalled c = true ↔ s.pendingCause c = true ∧ s.win.enable.getLsbD (c.number - 1) = true := Bool.and_eq_true_iff

/-! ## The ATTN line (R173, R169) -/

theorem attn_of_starting (hp : s.phase = .starting) : s.attn = false := by
  rw [State.attn, hp]
  rfl

theorem isSome_firstSignalled {g : Group} :
    (s.firstSignalled g).isSome = true ↔ ∃ c : Cause, c.group = g ∧ s.signalled c = true := by
  rw [← not_iff_not, Option.not_isSome_iff_eq_none, firstSignalled_eq_none]
  simp

theorem attn_iff (hp : s.phase = .running) : s.attn = true ↔ ∃ c : Cause, s.signalled c = true := by
  rw [State.attn, hp, beq_self_eq_true, Bool.true_and, List.any_eq_true]
  constructor
  · rintro ⟨g, -, hg⟩
    obtain ⟨c, -, hc⟩ := isSome_firstSignalled.1 hg
    exact ⟨c, hc⟩
  · rintro ⟨c, hc⟩
    exact ⟨c.group, group_mem_groups c, isSome_firstSignalled.2 ⟨c, rfl, hc⟩⟩

/-- With a cause signalled, CAUSE reads the one that goes before all the others (R173). -/
theorem causeCell_best (hp : s.phase = .running) (h : ∃ c : Cause, s.signalled c = true) :
    ∃ c : Cause, s.signalled c = true ∧ s.readCell 13 = word c.number
      ∧ ∀ c' : Cause, s.signalled c' = true → s.GoesBefore c c' := by
  obtain ⟨hnumber, hnone⟩ | ⟨c, hnumber, -, hc, hbest⟩ := causeNumber_cases hp
  · obtain ⟨c, hc⟩ := h
    rw [hnone c] at hc
    cases hc
  · exact ⟨c, hc, congrArg word hnumber, fun c' => hbest c' (group_mem_groups c')⟩

/-! ## Writes to ENABLE and LEVELS (R172) -/

theorem exec_enableWrite (hp : s.phase = .running) (v : Word) :
    exec (.enableWrite v) s = .next { s with win.enable := v.setWidth 11, win.release := .none } := by
  have hwrite : s.writeEnable v = { s with win.enable := v.setWidth 11, win.release := .none } := by
    simp only [State.writeEnable, hp]
    rfl
  exact congrArg _ hwrite

theorem exec_levelsWrite (hp : s.phase = .running) (v : Word) :
    exec (.levelsWrite v) s = .next { s with win.levels := v.setWidth 6, win.release := .none } := by
  have hwrite : s.writeLevels v = { s with win.levels := v.setWidth 6, win.release := .none } := by
    simp only [State.writeLevels, hp]
    rfl
  exact congrArg _ hwrite

/-- The levels that a LEVELS cell gives the groups: A stands at 3 (R172, R178). -/
theorem levelOf_of_levels {v : Word} (h : s.win.levels = v.setWidth 6) :
    s.levelOf .a = 3 ∧ s.levelOf .b = v.toNat % 4 ∧ s.levelOf .c = v.toNat / 4 % 4 ∧ s.levelOf .d = v.toNat / 16 % 4 := by
  have hnat : s.win.levels.toNat = v.toNat % 64 := by rw [h, BitVec.toNat_setWidth]
  refine ⟨rfl, ?_, ?_, ?_⟩ <;> simp only [State.levelOf, hnat] <;> omega

/-! ## Writes to CAUSE (R174, R169) -/

theorem exec_causeWrite (hp : s.phase = .running) (v : Word) : exec (.causeWrite v) s = .next
    { s with au.latches := s.au.latches &&& ~~~(v.setWidth 11 &&& eventMask), win.release := .none } := by
  have hwrite : s.writeCause v =
      { s with au.latches := s.au.latches &&& ~~~(v.setWidth 11 &&& eventMask), win.release := .none } := by
    simp only [State.writeCause, hp]
    rfl
  exact congrArg _ hwrite

theorem exec_causeWrite_starting (hp : s.phase = .starting) (v : Word) : exec (.causeWrite v) s = .next s.collide := by
  have hwrite : s.writeCause v = s.collide := by simp only [State.writeCause, hp]
  exact congrArg _ hwrite

theorem number_in_range (c : Cause) : c.number - 1 < 11 := by
  cases c <;> decide

/-- The mask holds the bits of the event causes (R174). -/
theorem eventMask_bit (c : Cause) : eventMask.getLsbD (c.number - 1) = c.isEvent := by
  cases c <;> decide

/-- A condition cause depends on no latch (R171). -/
theorem pendingCause_condition (h : c.isEvent = false) (l : BitVec 11) (w : Window) :
    ({ s with au.latches := l, win := w } : State).pendingCause c = s.pendingCause c := by
  cases c with
  | faultCaptured | orderFinished | returnWaiting => rfl
  | _ => cases h

/-- A CAUSE write clears the latches of the event causes whose bits are set, and nothing else (R174). -/
theorem pendingCause_causeWrite (c : Cause) (v : Word) (w : Window) :
    ({ s with au.latches := s.au.latches &&& ~~~(v.setWidth 11 &&& eventMask), win := w } : State).pendingCause c =
      (s.pendingCause c && !(c.isEvent && v.getLsbD (c.number - 1))) := by
  cases h : c.isEvent with
  | false => simp [pendingCause_condition h]
  | true =>
    simp only [pendingCause_event h, BitVec.getLsbD_and, BitVec.getLsbD_not, BitVec.getLsbD_setWidth, number_in_range,
      eventMask_bit, h, decide_true, Bool.true_and, Bool.and_true]

/-- Settles O53: the three writes cell by cell, what start-up ignores, then the causes from pending to served. -/
theorem attentionServesTheHighestGroup : Obligations.AttentionServesTheHighestGroup := by
  refine ⟨fun s v hp => ⟨⟨_, exec_enableWrite hp v, rfl, fun n => ?enable⟩,
      ⟨_, exec_levelsWrite hp v, rfl, fun n => ?levels, levelOf_of_levels rfl⟩,
      ⟨_, exec_causeWrite hp v, rfl, fun c => pendingCause_causeWrite c v _⟩⟩,
    fun s v hp => ⟨exec_causeWrite_starting hp v, congrArg word (causeNumber_of_starting hp), attn_of_starting hp⟩,
    fun s => ⟨fun c => pendingCause_event, pendingCause_faultCaptured, pendingCause_orderFinished,
      pendingCause_returnWaiting, fun c => signalled_iff, fun hp => ⟨attn_iff hp, (causeCell_eq_zero hp).2,
        causeCell_best hp⟩⟩⟩
  case enable => rw [readCell_enable, BitVec.getLsbD_setWidth]
  case levels => rw [readCell_levels, BitVec.getLsbD_setWidth]

end Sys2Proof.Machine
end

section
/-! What leaves the fault record as it stands: the settling, the zones' events, and every request but CLEAR FAULT (R175, R176). -/
namespace Sys2Proof.Machine

variable (s : State)

/-! ## The blocks' work -/

@[simp] theorem fault_finishOrder (o : OrderNo) (out : Outcome) :
    (s.finishOrder o out).au.fault = s.au.fault := by
  cases h : s.order? o with
  | none => simp only [State.finishOrder, h]
  | some r => rw [au_finishOrder h]

@[simp] theorem fault_finishIdle (a : Aisle) (o : OrderNo) (out : Outcome) :
    (s.finishIdle a o out).au.fault = s.au.fault := fault_finishOrder (s.goIdle a) o out

@[simp] theorem fault_placeOrder (o : OrderNo) (r : Order) : (s.placeOrder o r).au.fault = s.au.fault := by
  rw [au_placeOrder]

@[simp] theorem fault_makeRestore (a : Aisle) (b : BinNo) : (s.makeRestore a b).2.au.fault = s.au.fault := by
  unfold State.makeRestore
  split
  · exact fault_placeOrder _ _ _
  · rfl

@[simp] theorem fault_becomeActive : s.becomeActive.au.fault = s.au.fault := by rw [au_becomeActive]

@[simp] theorem fault_wakeByNeed : s.wakeByNeed.au.fault = s.au.fault := by
  obtain ⟨q, v, l, h⟩ := wakeByNeed_frame s
  rw [h]

@[simp] theorem fault_dismissInto (e : OrderNo) (p : Position) (b : BinNo) :
    (s.dismissInto e p b).au.fault = s.au.fault := by rw [au_dismissInto]

@[simp] theorem fault_callBin (e : OrderNo) (p : Position) (b : BinNo) :
    (s.callBin e p b).au.fault = s.au.fault := by rw [au_callBin]

@[simp] theorem fault_enterWanting (p : Position) : (s.enterWanting p).au.fault = s.au.fault := rfl

/-! ## The settling -/

theorem fault_tryDismissal (p : Position) : (s.tryDismissal p).au.fault = s.au.fault := by
  unfold State.tryDismissal
  (repeat' split) <;> simp

theorem fault_takeFetchClaim (p : Position) : (s.takeFetchClaim p).au.fault = s.au.fault := by
  simp only [State.takeFetchClaim]
  (repeat' split) <;> simp

theorem fault_tryFetch (p : Position) : (s.tryFetch p).au.fault = s.au.fault := by
  unfold State.tryFetch
  (repeat' split) <;> simp [fault_takeFetchClaim]

theorem fault_tendPositions : s.tendPositions.au.fault = s.au.fault := by
  simp only [State.tendPositions, fault_tryFetch, fault_tryDismissal]

theorem fault_settleWork : s.settleWork.au.fault = s.au.fault := by
  simp only [State.settleWork, au_workAisles, fault_tendPositions, au_lookForCrossing]

theorem fault_trySeal (z : ZoneNo) : (s.trySeal z).au.fault = s.au.fault := by
  unfold State.trySeal
  split
  · exact fault_sealZone s z
  · rfl

theorem fault_tryRecover (z : ZoneNo) : (s.tryRecover z).au.fault = s.au.fault := by
  unfold State.tryRecover
  (repeat' split) <;> rfl

theorem fault_settleZones : s.settleZones.au.fault = s.au.fault := by
  have hseal := foldl_reads (fun u : State => u.au.fault) fault_trySeal zones s
  unfold State.settleZones
  exact (foldl_reads (fun u : State => u.au.fault) fault_tryRecover zones _).trans hseal

theorem fault_tryQuiet : s.tryQuiet.au.fault = s.au.fault := by
  unfold State.tryQuiet
  split <;> rfl

theorem fault_tryAuditEnd : s.tryAuditEnd.au.fault = s.au.fault := by
  unfold State.tryAuditEnd
  split <;> rfl

@[simp] theorem fault_settle : s.settle.au.fault = s.au.fault := by
  simp only [State.settle, fault_tryAuditEnd, fault_tryQuiet, au_parkIdle, fault_settleWork, fault_settleZones]

/-! ## The zones' events and the arbiter -/

theorem fault_enterAlarm (z : ZoneNo) : (s.enterAlarm z).au.fault = s.au.fault :=
  (congrArg AttentionUnit.fault (enterAlarm_records s z).2).trans rfl

theorem fault_recoverShuttle (a : Aisle) : (s.recoverShuttle a).au.fault = s.au.fault := by
  unfold State.recoverShuttle
  split <;> rfl

theorem fault_rerunLane : s.rerunLane.au.fault = s.au.fault := by
  simp only [State.rerunLane]
  (repeat' split) <;> rfl

theorem fault_releaseZone (z : ZoneNo) : (s.releaseZone z).au.fault = s.au.fault := by
  by_cases h : z = frontHall
  · subst h
    rw [releaseZone_hall]
    exact fault_rerunLane _
  · rw [releaseZone_aisles h]
    exact foldl_reads (fun u : State => u.au.fault) fault_recoverShuttle (shuttlesOf z) _

theorem fault_placeRevivalAgain (a : Aisle) : (s.placeRevivalAgain a).au.fault = s.au.fault := by
  simp only [State.placeRevivalAgain]
  split <;> rfl

theorem fault_beginExchange (c : GrantClass) (a : Aisle) : (s.beginExchange c a).au.fault = s.au.fault := by
  cases c <;> rfl

theorem fault_grantNext : s.grantNext.au.fault = s.au.fault := by
  unfold State.grantNext
  split
  · exact fault_beginExchange _ _ _
  · rfl

theorem fault_grantLink : s.grantLink.au.fault = s.au.fault := by
  unfold State.grantLink
  (repeat' split)
  · rw [fault_grantNext, fault_settle]
    rfl
  · exact fault_beginExchange _ _ _
  · rfl

theorem fault_auditQualifying (b : BinNo) : (s.auditQualifying b).au.fault = s.au.fault := by
  unfold State.auditQualifying State.makeAuditProbe
  (repeat' split) <;> simp

theorem fault_stepCursor : s.stepCursor.au.fault = s.au.fault := by
  unfold State.stepCursor State.auditAt State.passAudit
  (repeat' split) <;> simp [fault_auditQualifying]

theorem fault_deliver (c : Crossing) : (s.deliver c).au.fault = s.au.fault := by
  cases hd : c.dest with
  | station d =>
    have hended (p : Place) : (s.endCrossing c p .ok).au.fault = s.au.fault :=
      fault_finishOrder (s.clearCrossing.setPlace c.bin p) c.order .ok
    cases d with
    | pick n =>
      obtain ⟨l, hl⟩ := arriveAtPick_frame (s.endCrossing c (.atStation (.pick n)) .ok) n c.bin
      rw [deliver_pick hd, hl]
      exact hended _
    | ret p =>
      rw [deliver_ret hd]
      exact hended _
  | portIn a =>
    simp only [State.deliver, hd, State.setStage]
    split <;> rfl

/-! ## Requests -/

@[simp] theorem fault_dropHolds : ∀ (ns : List PatronNo) (s : State), (State.dropHolds ns s).au.fault = s.au.fault
  | [], _ => rfl
  | n :: rest, s => fault_dropHolds rest (s.holdCountDown n)

@[simp] theorem fault_retireFrom (t : Tag) (st : ItemState) : (s.retireFrom t st).au.fault = s.au.fault := by
  cases st <;> rfl

@[simp] theorem fault_endFormer (t : Tag) (st : ItemState) : (s.endFormer t st).au.fault = s.au.fault := by
  cases st <;> rfl

@[simp] theorem fault_recall (t : Tag) (st : ItemState) : (s.recall t st).au.fault = s.au.fault := by
  unfold State.recall
  (repeat' split) <;> rfl

@[simp] theorem fault_addHold (t : Tag) (i : Item) (n : PatronNo) : (s.addHold t i n).au.fault = s.au.fault :=
  fault_recall _ _ _

@[simp] theorem fault_loseItem (t : Tag) (i : Item) : (s.loseItem t i).au.fault = s.au.fault :=
  fault_dropHolds i.holds s

@[simp] theorem fault_chargeItem (t : Tag) (i : Item) (b : BinNo) (n : PatronNo) (due : Nat) :
    (s.chargeItem t i b n due).au.fault = s.au.fault := by
  unfold State.chargeItem
  split <;> rfl

@[simp] theorem fault_placeReturned (p : Position) (b : BinNo) (t : Tag) (holds : List PatronNo) :
    (s.placeReturned p b t holds).au.fault = s.au.fault := by
  simp only [State.placeReturned]
  (repeat' split) <;> rfl

@[simp] theorem fault_dropItem (t : Tag) (i : Item) : (s.dropItem t i).au.fault = s.au.fault := by
  simp only [State.dropItem, State.reportDrop]
  split
  · exact fault_wakeByNeed _
  · rfl

@[simp] theorem fault_closeReturn : s.closeReturn.au.fault = s.au.fault := by
  rw [closeReturn_eq]
  rfl

@[simp] theorem fault_closeStation (n : StationNo) : (s.closeStation n).au.fault = s.au.fault := by
  unfold State.closeStation
  split
  · exact fault_closeReturn _
  · rfl

@[simp] theorem fault_dismiss (e : OrderNo) (b : BinNo) (rest : List BinNo) (pr : Fin 4) (k : PickNo) :
    (s.dismiss e b rest pr k).au.fault = s.au.fault := by
  obtain ⟨l, h⟩ := dismiss_frame s e b rest pr k
  rw [h]
  exact fault_placeOrder s e (s.dismissalStow b pr)

@[simp] theorem fault_cancelQueued (e : OrderNo) (r : Order) : (s.cancelQueued e r).au.fault = s.au.fault :=
  fault_finishOrder (s.setPlace r.bin .home) e .cancelled

theorem fault_offer (e : OrderNo) (c : Claim) : (s.offer e c).2.au.fault = s.au.fault := by
  cases c with
  | restore a b => exact fault_placeOrder _ _ _
  | dismissal p =>
    simp only [State.offer, State.offerDismissal]
    (repeat' split) <;> simp
  | fetch p =>
    simp only [State.offer, State.offerFetch]
    split <;> simp
  | audit b =>
    simp only [State.offer, State.offerAudit, State.makeAuditProbe, State.passAudit]
    (repeat' split) <;> simp

theorem fault_offerAll (e : OrderNo) : ∀ (l : List Claim) (s : State), (s.offerAll e l).au.fault = s.au.fault
  | [], _ => rfl
  | c :: rest, s => by
    have hoffer := fault_offer s e c
    unfold State.offerAll
    split
    · rename_i t ht
      rwa [ht] at hoffer
    · rename_i t ht
      rw [ht] at hoffer
      exact (fault_offerAll e rest t).trans hoffer

@[simp] theorem fault_freeAndOffer (e : OrderNo) : (s.freeAndOffer e).au.fault = s.au.fault :=
  fault_offerAll e _ _

theorem fault_resetController (o : Operands) : (resetController o s).All fun t => t.au.fault = s.au.fault := by
  have hblocks : s.softResetBlocks.au.fault = s.au.fault := rfl
  simp only [resetController, State.softReset, Reply.All, fault_settle, hblocks]

variable {s} in
/-- Every request but CLEAR FAULT leaves the fault record (R168, R176). -/
theorem fault_evaluation {n : Nat} {e : Evaluation} (he : evaluationOf? n = some e) (hn : n ≠ 0x63) (o : Operands) :
    (e o s).All fun t => t.au.fault = s.au.fault := by
  unfold evaluationOf? at he
  split at he
  case h_53 => exact absurd rfl hn
  case h_54 => cases he; exact fault_resetController s o
  all_goals cases he
  all_goals
    simp only [enrolBin, retireBin, setPlace, readBin, defineSegment, readSegment, readChanged, clearChanged, setDay,
      setCategory, readCategory, enrolItem, retireItem, readItem, enrolPatron, retirePatron, setPatronBlock, readPatron,
      readLoans, fetch, collect, readOrder, cancelOrder, resumeOrder, audit, cancelAudit, auditBin, auditBinUnder, quiesce,
      wake, readShuttle, reviveShuttle, openStation, closeStation, setStation, dismiss, reclaimPlace, readStation, readLane,
      pick, putBack, charge, chargeUnder, renew, declareLost, placeHold, cancelHold, returnItem, placeDropped, closePosition,
      readDropList, setDeadline, readZone, readFault, atContext, onPatron, onOrder, onShuttle, handlingAt, recordAt,
      State.cancelRunning, dismissPresented, reclaimOut, reclaimStow, renewLoan, returnAccepted, placeAccepted]
    (repeat' split)
  -- What an accepted request changes is an operation with a lemma above, or writes that are no writes of the fault record.
  all_goals simp only [Reply.All, fault_settle]
  any_goals simp
  all_goals rfl

end Sys2Proof.Machine
end

section
/-! A FULL fault record keeps its first fault through captures: completions, results of exchanges, and failed crossings (R175). -/
namespace Sys2Proof.Machine

/-- The fault record is FULL, with `k` as its first fault (R175). -/
def State.FirstFault (s : State) (k : Capture) : Prop := s.au.fault.map FaultRecord.first = some k

variable {s t : State} {a : Aisle} {k : Capture}

theorem firstFault_iff : s.FirstFault k ↔ ∃ f, s.au.fault = some f ∧ f.first = k := Option.map_eq_some_iff

theorem firstFault_of_fault (h : t.au.fault = s.au.fault) (hs : s.FirstFault k) : t.FirstFault k := by
  rwa [State.FirstFault, h]

theorem firstFault_of_au (h : t.au = s.au) (hs : s.FirstFault k) : t.FirstFault k := firstFault_of_fault (by rw [h]) hs

/-- A capture into a FULL record sets the further flag alone (R175). -/
theorem firstFault_of_captured {d : Capture} (h : t.au.fault = some (captured d s.au.fault)) (hs : s.FirstFault k) :
    t.FirstFault k := by
  obtain ⟨f, hf, hfirst⟩ := firstFault_iff.1 hs
  rw [hf] at h
  exact firstFault_iff.2 ⟨_, h, hfirst⟩

theorem firstFault_capture (d : Capture) (hs : s.FirstFault k) : (s.capture d).FirstFault k := firstFault_of_captured rfl hs

section
variable (hs : s.FirstFault k)
include hs

theorem firstFault_finishIdle (o : OrderNo) (out : Outcome) : (s.finishIdle a o out).FirstFault k :=
  firstFault_of_fault (fault_finishIdle s a o out) hs

/-! ## Completions (R51 to R56, R81, R86, R87) -/

theorem firstFault_seekDone (o : OrderNo) (r : Order) : (s.seekDone a o r).FirstFault k := by
  unfold State.seekDone
  (repeat' split)
  · exact firstFault_finishIdle hs o .cancelled
  · exact hs
  · exact hs

theorem firstFault_toPortDone (o : OrderNo) (r : Order) : (s.toPortDone a o r).FirstFault k := by
  unfold State.toPortDone
  (repeat' split) <;> exact hs

theorem firstFault_liftDone (o : OrderNo) (r : Order) (label : Label) : (s.liftDone a o r label).FirstFault k := by
  unfold State.liftDone
  (repeat' split)
  · exact firstFault_finishIdle (s := s.setPlace r.bin .missing) hs o .absent
  · exact firstFault_capture (s := s.setPlace r.bin .unverified) _ hs
  · exact hs
  · exact hs
  · exact firstFault_capture (s := (s.setPlace r.bin .missing).unsettle _) _ hs

theorem firstFault_probeDone (o : OrderNo) (r : Order) (label : Label) : (s.probeDone a o r label).FirstFault k := by
  unfold State.probeDone
  (repeat' split)
  · exact firstFault_finishIdle (s := s.setPlace r.bin .missing) hs o .absent
  · exact firstFault_finishIdle (firstFault_capture (s := s.setPlace r.bin .unverified) _ hs) o .unreadable
  · exact firstFault_finishIdle (s := s.setPlace r.bin .home) hs o .found
  · exact firstFault_finishIdle (firstFault_capture (s := s.setPlace r.bin .missing) _ hs) o .mismatch

theorem firstFault_lowerDone (o : OrderNo) (r : Order) : (s.lowerDone a o r).FirstFault k := by
  unfold State.lowerDone
  split
  · exact firstFault_finishIdle hs o .mismatch
  · exact firstFault_finishIdle hs o .unreadable
  · exact firstFault_finishIdle (s := s.unboard a r.bin .home) hs o .ok

theorem firstFault_stageDone (o : OrderNo) (r : Order) (st : RunStage) (label : Label) :
    (s.stageDone a o r st label).FirstFault k := by
  cases st with
  | seeking => exact firstFault_seekDone hs o r
  | lifting => exact firstFault_liftDone hs o r label
  | carrying => exact firstFault_toPortDone hs o r
  | holding => exact firstFault_toPortDone hs o r
  | lowering => exact firstFault_lowerDone hs o r
  | probing => exact firstFault_probeDone hs o r label
  | queued | handing | waitingLane | crossing | takingOn | returning => exact hs

theorem firstFault_completeCommand (c : InFlight) (label : Label) : (s.completeCommand a c label).FirstFault k := by
  have hcleared : (s.clearCommand a).FirstFault k := hs
  unfold State.completeCommand State.parkDone
  dsimp only
  (repeat' split)
  any_goals exact hs
  exact firstFault_stageDone hcleared _ _ _ label

/-! ## Silences, faults and commands (R77, R80 to R85) -/

theorem firstFault_silent (a : Aisle) : (s.silent a).FirstFault k := by
  by_cases h : (s.shuttle a).silence < 2 ∨ (s.shuttle a).state = .offline ∨ (s.shuttle a).state = .caught
  · rw [silent_counts h]
    exact hs
  · simp only [not_or, not_lt] at h
    obtain ⟨h2, hoffline, hcaught⟩ := h
    obtain ⟨-, -, hfault, -⟩ := silent_stops_reads h2 hoffline hcaught
    exact firstFault_of_captured hfault hs

theorem firstFault_heard (a : Aisle) (x : LinkAnswer) : (s.heard a x).FirstFault k := by
  obtain ⟨r, hr⟩ := heard_eq (s := s) a x
  rw [hr]
  exact hs

theorem firstFault_faultShuttle (a : Aisle) (code : Byte) : (s.faultShuttle a code).FirstFault k :=
  firstFault_of_captured (congrArg (·.au.fault) (faultShuttle_eq s a code)) hs

theorem firstFault_overrun (a : Aisle) : (s.overrun a).FirstFault k := by
  obtain ⟨-, hfault, -⟩ := overrun_reads s a
  exact firstFault_of_captured hfault hs

theorem firstFault_commandResult (ans : Option LinkAnswer) : (s.commandResult a ans).FirstFault k := by
  match ans with
  | none => exact firstFault_silent (s := s.markCommand a .unconfirmed) hs a
  | some (.refused reason) => exact firstFault_faultShuttle (firstFault_heard hs a _) a reason
  | some .ack => exact firstFault_heard hs a .ack
  | some (.status st) => exact firstFault_heard hs a (.status st)

theorem firstFault_parkAfterExchange (a : Aisle) : (s.parkAfterExchange a).FirstFault k := by
  unfold State.parkAfterExchange
  (repeat' split) <;> exact hs

theorem firstFault_sendAgain (c : InFlight) : (s.sendAgain a c).FirstFault k := by
  unfold State.sendAgain
  split
  · obtain ⟨v, hv⟩ := withdrawPortCommand_frame s a
    rw [hv]
    exact hs
  · exact hs

theorem firstFault_pollWaiting (st : StatusAnswer) : (s.pollWaiting a st).FirstFault k := by
  unfold State.pollWaiting
  split
  · exact firstFault_faultShuttle hs a st.code
  · exact hs

theorem firstFault_pollUnconfirmed (c : InFlight) (st : StatusAnswer) : (s.pollUnconfirmed a c st).FirstFault k := by
  unfold State.pollUnconfirmed
  (repeat' split)
  · exact firstFault_faultShuttle hs a st.code
  · exact hs
  · exact firstFault_sendAgain hs c
  · exact firstFault_completeCommand hs c st.label
  · exact firstFault_sendAgain hs c
  · exact firstFault_sendAgain hs c

theorem firstFault_pollAccepted (c : InFlight) (st : StatusAnswer) : (s.pollAccepted a c st).FirstFault k := by
  unfold State.pollAccepted
  (repeat' split)
  · exact firstFault_faultShuttle hs a st.code
  · exact hs
  · exact firstFault_faultShuttle hs a 0
  · exact firstFault_completeCommand hs c st.label
  · exact firstFault_faultShuttle hs a 0
  · exact firstFault_faultShuttle hs a 0

theorem firstFault_pollResult (ans : Option LinkAnswer) : (s.pollResult a ans).FirstFault k := by
  match ans with
  | none => exact firstFault_silent hs a
  | some .ack => exact firstFault_silent hs a
  | some (.refused reason) => exact firstFault_silent hs a
  | some (.status st) =>
    have hheard := firstFault_heard hs a (.status st)
    simp only [State.pollResult]
    (repeat' split)
    · exact firstFault_pollWaiting hheard st
    · exact firstFault_pollUnconfirmed hheard _ st
    · exact firstFault_pollAccepted hheard _ st
    · exact firstFault_pollWaiting hheard st

/-! ## Revivals (R88, R153) -/

theorem firstFault_loseCarried (a : Aisle) : (s.loseCarried a).FirstFault k :=
  have ⟨_, hau, _⟩ := loseCarried_frame s a
  firstFault_of_au hau hs

theorem firstFault_loseOther (a : Aisle) (b : BinNo) : (s.loseOther a b).FirstFault k :=
  have ⟨_, hau, _⟩ := loseOther_frame s a b
  firstFault_of_au hau hs

theorem firstFault_rejectLabel (a : Aisle) (b : BinNo) (o : Option OrderNo) : (s.rejectLabel a b o).FirstFault k :=
  firstFault_capture (s := s.changeShuttle a _) _ hs

theorem firstFault_acceptLabel (b : BinNo) (kept : Bool) : (s.acceptLabel a b kept).2.FirstFault k := by
  have hboard : (((s.loseOther a b).goIdle a).board a b).FirstFault k := firstFault_loseOther hs a b
  cases kept with
  | true => exact hboard
  | false => exact firstFault_of_fault (fault_makeRestore _ a b) hboard

theorem firstFault_reviveWithBin (b : BinNo) : (s.reviveWithBin a b).2.FirstFault k := by
  unfold State.reviveWithBin
  (repeat' split)
  · exact firstFault_rejectLabel (firstFault_loseCarried hs a) a b none
  · exact firstFault_rejectLabel (s := (s.loseCarried a).unsettleFree b) (firstFault_loseCarried hs a) a b none
  · exact firstFault_rejectLabel (firstFault_loseOther hs a b) a b none
  · exact firstFault_acceptLabel hs b false
  · exact firstFault_acceptLabel hs b true
  · exact firstFault_rejectLabel (firstFault_loseOther hs a b) a b _

theorem firstFault_reviveAtRest (st : StatusAnswer) : (s.reviveAtRest a st).2.FirstFault k := by
  have hlost := firstFault_loseCarried hs a
  unfold State.reviveAtRest
  (repeat' split)
  · exact hlost
  · exact hlost
  · exact firstFault_capture (s := (s.loseCarried a).changeShuttle a _) _ hlost
  · exact firstFault_reviveWithBin hs _

theorem firstFault_reviveFaulted (code : Byte) : (s.reviveFaulted a code).FirstFault k :=
  firstFault_of_captured (fault_reviveFaulted s a code) hs

theorem firstFault_revive (a : Aisle) (ans : Option LinkAnswer) : (s.revive a ans).2.FirstFault k := by
  unfold State.revive
  (repeat' split)
  · exact firstFault_heard hs a _
  · exact firstFault_reviveFaulted (firstFault_heard hs a _) _
  · exact firstFault_reviveAtRest (firstFault_heard hs a _) _
  · exact hs

/-! ## RESUME ORDER (R59) -/

theorem firstFault_followCourse (o : OrderNo) (r : Order) (h : Restart) (c : Course) (label : Label) :
    (s.followCourse a o r h c label).FirstFault k := by
  cases c with
  | nextStep => exact firstFault_stageDone (s := (s.putOrder o _).changeShuttle a _) hs o _ h.stageAt label
  | countedDone => exact firstFault_stageDone (s := (s.putOrder o _).changeShuttle a _) hs o _ h.stageAt label
  | repeated => exact hs
  | stillRunning => exact hs

theorem firstFault_resumeWith (o : OrderNo) (st : StatusAnswer) : (s.resumeWith a o st).FirstFault k := by
  simp only [State.resumeWith]
  (repeat' split)
  · exact hs
  · exact hs
  · exact firstFault_followCourse hs o _ _ _ st.label
  · exact hs

theorem firstFault_resumeResult (ans : Option LinkAnswer) : (s.resumeResult a ans).FirstFault k := by
  match ans with
  | none => exact firstFault_silent hs a
  | some .ack => exact firstFault_silent hs a
  | some (.refused reason) => exact firstFault_silent hs a
  | some (.status st) =>
    have hheard := firstFault_heard hs a (.status st)
    simp only [State.resumeResult]
    (repeat' split)
    · exact hheard
    · exact firstFault_resumeWith hheard _ st
    · exact hheard

/-! ## Every result (R76) -/

theorem firstFault_applyResult (m : ExchangeKind) (ans : Option LinkAnswer) : (s.applyResult a m ans).FirstFault k := by
  have hrevive := firstFault_revive hs a ans
  cases m with
  | command m => exact firstFault_parkAfterExchange (firstFault_commandResult hs ans) a
  | busyPoll => exact firstFault_pollResult hs ans
  | offlinePoll => exact hrevive
  | revival =>
    simp only [State.applyResult, State.revivalResult]
    split <;> exact hrevive
  | hostRevival =>
    simp only [State.applyResult, State.hostRevivalResult]
    split <;> exact hrevive
  | resume => exact firstFault_resumeResult hs ans

theorem firstFault_countOnly (ans : Option LinkAnswer) : (s.countOnly a ans).FirstFault k := by
  cases ans with
  | none => exact firstFault_silent hs a
  | some x => exact firstFault_heard hs a x

theorem firstFault_refuseRequest (m : ExchangeKind) : (s.refuseRequest m).FirstFault k := by
  cases m <;> exact hs

theorem firstFault_endExchange (x : Exchange) (ans : Option LinkAnswer) : (s.endExchange x ans).FirstFault k := by
  have hfree : ({ s with alc.exchange := none } : State).FirstFault k := hs
  cases hu : x.use with
  | full =>
    rw [endExchange_full ans hu]
    exact firstFault_applyResult hfree x.kind ans
  | silenceAndPosition =>
    rw [endExchange_limited ans hu]
    exact firstFault_refuseRequest (firstFault_countOnly hfree ans) x.kind
  | discard =>
    rw [endExchange_discarded ans hu]
    exact firstFault_refuseRequest hfree x.kind

/-! ## Crossings and deadlines (R96, R146) -/

theorem firstFault_failCrossing (c : Crossing) (kind : FaultKind) : (s.failCrossing c kind).FirstFault k :=
  firstFault_capture _ (firstFault_of_fault (fault_finishOrder (s.clearCrossing.setPlace c.bin .unverified) c.order .fault) hs)

theorem firstFault_catchShuttle (a : Aisle) : (s.catchShuttle a).FirstFault k := by
  by_cases h : s.Moving a
  · exact firstFault_of_captured (fault_catchShuttle h) hs
  · rwa [catchShuttle_resting h]

theorem firstFault_expireZone (z : ZoneNo) : (s.expireZone z).FirstFault k :=
  firstFault_of_fault (fault_sealZone (s.catchZone z) z)
    (foldl_keeps (P := (State.FirstFault · k)) (fun _ a hu => firstFault_catchShuttle hu a) (shuttlesOf z) hs)

theorem firstFault_settle : s.settle.FirstFault k := firstFault_of_fault (fault_settle s) hs

end

end Sys2Proof.Machine
end

section
/-! A step keeps the first fault of a FULL record or makes the record EMPTY; READ FAULT and CLEAR FAULT (R175, R176). This is no
`StepLaw`: the blocks' work captures faults, and CLEAR FAULT is a request. -/
namespace Sys2Proof.Machine

variable {s t : State} {a : Aisle} {k : Capture}

/-- The record is EMPTY, or FULL with `k` as its first fault. -/
def State.KeptFault (s : State) (k : Capture) : Prop := s.au.fault = none ∨ s.FirstFault k

section
variable (hs : s.FirstFault k)
include hs

/-! ## Window accesses -/

/-- Every request keeps the first fault but CLEAR FAULT, which makes the record EMPTY (R176). -/
theorem keptFault_evaluation {n : Nat} {e : Evaluation} (he : evaluationOf? n = some e) (o : Operands) :
    (e o s).All (State.KeptFault · k) := by
  by_cases hn : n = 0x63
  · subst hn
    cases he
    exact .inl rfl
  · exact (fault_evaluation he hn o).mono fun t ht => .inr (firstFault_of_fault ht hs)

theorem keptFault_takeRequest {code : Word} {e : Evaluation}
    (heval : (e s.operands (s.storeRequest code)).All (State.KeptFault · k)) : (s.takeRequest code e).KeptFault k :=
  takeRequest_all (P := (State.KeptFault · k)) (fun _ _ _ h => h) (fun _ _ h => h) (fun h => h) (fun h => h) (fun _ => heval)
    (.inr hs)

theorem keptFault_writeRequest (v : Word) : (s.writeRequest v).KeptFault k := by
  refine keptFault_takeRequest hs ?_
  cases he : evaluationOf? v.toNat with
  | none => exact Reply.all_refuse
  | some e => exact keptFault_evaluation (s := s.storeRequest v) hs he _

theorem firstFault_writeRelease (v : Word) : (s.writeRelease v).FirstFault k := by
  unfold State.writeRelease State.judgeRelease
  (repeat' split)
  case h_3.isTrue => exact firstFault_settle (firstFault_of_fault (fault_releaseZone _ _) hs)
  all_goals exact hs

theorem firstFault_writeCause (v : Word) : (s.writeCause v).FirstFault k := by
  unfold State.writeCause
  split <;> exact hs

theorem firstFault_writeEnable (v : Word) : (s.writeEnable v).FirstFault k := by
  unfold State.writeEnable
  split <;> exact hs

theorem firstFault_writeLevels (v : Word) : (s.writeLevels v).FirstFault k := by
  unfold State.writeLevels
  split <;> exact hs

theorem keptFault_writeCell (cell : BitVec 5) (v : Word) : (s.writeCell cell v).KeptFault k := by
  unfold State.writeCell
  split
  case h_1 => exact keptFault_writeRequest hs v
  case h_9 => exact .inr (firstFault_writeCause hs v)
  case h_10 => exact .inr (firstFault_writeEnable hs v)
  case h_11 => exact .inr (firstFault_writeLevels hs v)
  case h_12 => exact .inr (firstFault_writeRelease hs v)
  case h_13 => split <;> exact .inr hs
  all_goals exact .inr hs

/-! ## Events outside the window -/

theorem firstFault_takeLine (z : ZoneNo) (active : Bool) : (s.takeLine z active).FirstFault k := by
  simp only [State.takeLine]
  split
  · exact firstFault_settle (firstFault_of_fault (fault_enterAlarm (s.setLine z active) z) hs)
  · exact hs

theorem firstFault_takeZoneExpiry (z : ZoneNo) : (s.takeZoneExpiry z).FirstFault k := by
  unfold State.takeZoneExpiry
  split
  · exact firstFault_settle (firstFault_expireZone hs z)
  · exact hs

theorem firstFault_takeRevivalRetry (a : Aisle) : (s.takeRevivalRetry a).FirstFault k := by
  unfold State.takeRevivalRetry
  split
  · exact firstFault_settle (firstFault_of_fault (fault_placeRevivalAgain s a) hs)
  · exact hs

theorem firstFault_takeLinkGrant : s.takeLinkGrant.FirstFault k := by
  unfold State.takeLinkGrant
  split
  · exact firstFault_of_fault (fault_grantLink s) hs
  · exact hs

theorem firstFault_takeAnswer (chars : List LinkChar) : (s.takeAnswer chars).FirstFault k := by
  unfold State.takeAnswer
  split
  · exact firstFault_settle (firstFault_endExchange hs _ _)
  · exact hs

theorem firstFault_takeNoAnswer : s.takeNoAnswer.FirstFault k := by
  unfold State.takeNoAnswer
  split
  · exact firstFault_settle (firstFault_endExchange hs _ none)
  · exact hs

theorem firstFault_takeMotionExpiry (a : Aisle) : (s.takeMotionExpiry a).FirstFault k := by
  unfold State.takeMotionExpiry
  split
  · exact firstFault_settle (firstFault_overrun hs a)
  · exact hs

theorem firstFault_takeDone : s.takeDone.FirstFault k := by
  unfold State.takeDone
  split
  · exact firstFault_settle (firstFault_of_fault (fault_deliver s _) hs)
  · exact hs

theorem firstFault_takeLaneFault : s.takeLaneFault.FirstFault k := by
  unfold State.takeLaneFault
  split
  · exact firstFault_settle (firstFault_failCrossing hs _ .laneFault)
  · exact hs

theorem firstFault_takeCrossingExpiry : s.takeCrossingExpiry.FirstFault k := by
  unfold State.takeCrossingExpiry
  (repeat' split)
  · exact hs
  · exact firstFault_settle (firstFault_failCrossing hs _ .laneOverdue)
  · exact hs

/-- An event of a running part keeps the first fault where its action does. -/
theorem keptFault_whenRunning {f : State → State} (hf : s.FirstFault k → (f s).FirstFault k) :
    (s.whenRunning f).KeptFault k := .inr (keeps_whenRunning (P := (State.FirstFault · k)) hf hs)

/-! ## A command, and a step -/

/-- A command keeps the first fault; CLEAR FAULT and START_UP make the record EMPTY (R170, R176). -/
theorem keptFault_exec (i : Instr) : ∃ t, exec i s = .next t ∧ t.KeptFault k := by
  cases hi : requestCode? i with
  | some n =>
    obtain ⟨e, he, hexec⟩ := exec_request hi
    exact ⟨_, hexec s, keptFault_takeRequest hs (keptFault_evaluation (s := s.storeRequest _) hs he _)⟩
  | none =>
    cases i with
    | undefinedRequest v => exact ⟨_, rfl, keptFault_writeRequest hs v⟩
    | requestCollision v => exact ⟨_, exec_requestCollision s v, keptFault_writeRequest hs v⟩
    | releaseWrite v => exact ⟨_, rfl, .inr (firstFault_writeRelease hs v)⟩
    | causeWrite v => exact ⟨_, rfl, .inr (firstFault_writeCause hs v)⟩
    | enableWrite v => exact ⟨_, rfl, .inr (firstFault_writeEnable hs v)⟩
    | levelsWrite v => exact ⟨_, rfl, .inr (firstFault_writeLevels hs v)⟩
    | stateRead => exact ⟨_, rfl, .inr hs⟩
    | windowCellWrite cell v => exact ⟨_, rfl, keptFault_writeCell hs cell v⟩
    | resetAsserted m => exact ⟨_, rfl, .inr hs⟩
    | startUp =>
      refine ⟨_, rfl, ?_⟩
      split
      · exact .inl (congrArg AttentionUnit.fault au_startUp)
      · exact .inr hs
    | alarmLineChange z active =>
      exact ⟨_, rfl, keptFault_whenRunning (s := s.setPin z active) hs fun h => firstFault_takeLine h z active⟩
    | zoneDeadlineExpiry z => exact ⟨_, rfl, keptFault_whenRunning hs fun h => firstFault_takeZoneExpiry h z⟩
    | revivalRetryDue a => exact ⟨_, rfl, keptFault_whenRunning hs fun h => firstFault_takeRevivalRetry h a⟩
    | offlinePollDue a => exact ⟨_, rfl, keptFault_whenRunning hs fun h => h⟩
    | linkGrant => exact ⟨_, rfl, keptFault_whenRunning hs firstFault_takeLinkGrant⟩
    | answerReceived chars => exact ⟨_, rfl, keptFault_whenRunning hs fun h => firstFault_takeAnswer h chars⟩
    | answerInvalid => exact ⟨_, rfl, keptFault_whenRunning hs firstFault_takeNoAnswer⟩
    | replyWindowExpiry => exact ⟨_, rfl, keptFault_whenRunning hs firstFault_takeNoAnswer⟩
    | motionDeadlineExpiry a => exact ⟨_, rfl, keptFault_whenRunning hs fun h => firstFault_takeMotionExpiry h a⟩
    | auditCursorStep => exact ⟨_, rfl, keptFault_whenRunning hs (firstFault_of_fault (fault_stepCursor s))⟩
    | ldone => exact ⟨_, rfl, keptFault_whenRunning hs firstFault_takeDone⟩
    | lflt => exact ⟨_, rfl, keptFault_whenRunning hs firstFault_takeLaneFault⟩
    | crossingDeadlineExpiry => exact ⟨_, rfl, keptFault_whenRunning hs firstFault_takeCrossingExpiry⟩
    | receivedCharacterDiscarded c => exact ⟨_, rfl, .inr hs⟩
    | _ => cases hi

theorem keptFault_step (h : step s = .next t) : t.KeptFault k := by
  unfold step at h
  split at h
  · rename_i c rest _
    obtain ⟨u, hu, hkept⟩ := keptFault_exec (s := { s with pending := rest }) hs c
    rw [hu] at h
    cases h
    exact hkept
  · cases h
    exact keptFault_whenRunning hs fun hu => hu

end

/-! ## READ FAULT and CLEAR FAULT (R176, R182) -/

theorem exec_readFault (hw : s.windowFree = true) :
    exec .readFault s = .next (s.requestDone 0x62 .ok (faultAnswer s.au.fault)) :=
  next_answered (e := readFault) (t := s.storeRequest 0x62) hw rfl

theorem exec_clearFault (hw : s.windowFree = true) :
    exec .clearFault s = .next (State.requestDone 0x63 .ok (faultAnswer s.au.fault) { s with au.fault := none }) :=
  next_answered (e := clearFault) (t := { s.storeRequest 0x63 with au.fault := none }) hw rfl

/-- The presence bits of a capture, each at its place in A0 (R182). -/
theorem presence_eq (c : Capture) : c.presence * 256 =
    (if c.shuttle.isSome then 4096 else 0) + (if c.order.isSome then 2048 else 0) + (if c.bin.isSome then 1024 else 0)
      + (if c.stage.isSome then 512 else 0) + (if c.code.isSome then 256 else 0) := by
  simp only [Capture.presence, ← flagCode_mul]
  ring

/-- The first cell of the answer about a FULL record (R182). -/
theorem faultCell_eq (f : FaultRecord) : 32768 + flagCode f.further * 16384 + f.first.presence * 256 + f.first.kind.code =
    32768 + (if f.further then 16384 else 0) + (if f.first.shuttle.isSome then 4096 else 0)
      + (if f.first.order.isSome then 2048 else 0) + (if f.first.bin.isSome then 1024 else 0)
      + (if f.first.stage.isSome then 512 else 0) + (if f.first.code.isSome then 256 else 0) + f.first.kind.code := by
  rw [flagCode_mul, presence_eq]
  omega

/-- The answer about a FULL record: its first fault, each absent field with the mark for none (R180, R182). -/
theorem faultAnswer_some (f : FaultRecord) : faultAnswer (some f) =
    { a0 := word (32768 + (if f.further then 16384 else 0) + (if f.first.shuttle.isSome then 4096 else 0)
        + (if f.first.order.isSome then 2048 else 0) + (if f.first.bin.isSome then 1024 else 0)
        + (if f.first.stage.isSome then 512 else 0) + (if f.first.code.isSome then 256 else 0) + f.first.kind.code)
      a1 := bytePair (match f.first.shuttle with | some a => a.val | none => 0xFF)
        (match f.first.order with | some o => o.val | none => 0xFF)
      a2 := match f.first.bin with | some b => word b.val | none => 0xFFFF
      a3 := bytePair (match f.first.stage with | some st => st.code | none => 0xFF)
        (match f.first.code with | some c => c.toNat | none => 0xFF) } := by
  rw [faultAnswer, Answer.mk.injEq]
  refine ⟨congrArg word (faultCell_eq f), congrArg₂ bytePair ?shuttle ?order, binCell_eq f.first.bin,
    congrArg₂ bytePair ?stage ?code⟩
  case shuttle => cases f.first.shuttle <;> rfl
  case order => cases f.first.order <;> rfl
  case stage => cases f.first.stage <;> rfl
  case code => cases f.first.code <;> rfl

/-- The kind field of an EMPTY record is a value of three bits (R179; log entry 6). -/
theorem absentKind_lt : (word Config.absentFaultKind.toNat).toNat < 8 := by
  have h := Config.absentFaultKind.isLt
  rw [word, BitVec.toNat_ofNat]
  omega

/-- Settles O48: the capture, the two requests on a FULL and on an EMPTY record, and the first fault kept by every step. -/
theorem faultRecordKeepsItsFirstFault : Obligations.FaultRecordKeepsItsFirstFault := by
  refine ⟨fun s c => ⟨fun h => ?filled, fun f h => ?further, rfl⟩, fun s hw => ⟨fun f h => ?full, fun h => ?empty⟩,
    fun s t f hstep h => ?kept⟩
  case filled => rw [State.capture_au_fault, h]; rfl
  case further => rw [State.capture_au_fault, h]; rfl
  case full =>
    have hread := exec_readFault hw
    have hclear := exec_clearFault hw
    rw [h, faultAnswer_some] at hread hclear
    exact ⟨hread, hclear⟩
  case empty =>
    have hread := exec_readFault hw
    have hclear := exec_clearFault hw
    have hempty : ({ s with au.fault := none } : State) = s := by rw [← h]
    rw [hempty] at hclear
    rw [h] at hread hclear
    exact ⟨_, absentKind_lt, hread, hclear⟩
  case kept =>
    obtain hnone | hfirst := keptFault_step (firstFault_iff.2 ⟨f, h, rfl⟩) hstep
    · exact .inl hnone
    · exact .inr (firstFault_iff.1 hfirst)

end Sys2Proof.Machine
end
